-- ==== Sys2Proof/Word.lean ====
section
/-! DEFINITION. The two bit-vector widths of the block: the byte of the framebuffer and of the bus, and the
32-bit word of the register window and of every command (R6, R8, R21, R80). -/

namespace Sys2Proof

/-- One byte: a framebuffer byte (R34), a bus byte (R37), a contrast value (R30). -/
abbrev Byte := BitVec 8

/-- One 32-bit word: a command (R80) or a register of the window (R21). -/
abbrev Word := BitVec 32

/-- A concatenation of fields as a word (R6): the fields of every use fill its 32 bits. -/
abbrev word {n : Nat} (fields : BitVec n) : Word := fields.setWidth 32

end Sys2Proof
end

