-- ==== Sys2Proof/Syntax.lean ====
section
/-! DEFINITION. The command set OFC-1 as syntax: one constructor of `Instr` for each row of
spec/opcode_table.json (R89), with the operands of R92. Reserved values (MODE = 3, V = 3) have no term: the
decoder refuses their words (R88). -/

namespace Sys2Proof

/-- The addressing mode, CTRL.MODE (R10, R31). The value 3 is never held. -/
inductive Mode
  | horizontal
  | vertical
  | page
deriving DecidableEq, Repr

/-- A pixel value (R9): the tri-state of a pixel write. -/
inductive PixelValue
  | off
  | on
  | invert
deriving DecidableEq, Repr

/-- One command (R89). Pixel coordinates are integers (R92: sign-extended 12-bit fields), so that the bounds
tests are on integers (R75); which integers an encoding holds is `Instr.wf`. -/
inductive Instr
  /-- R192 -/
  | nop
  /-- R193: addressing mode, initial contrast, VCCEXT (true: external VCC). -/
  | begin (mode : Mode) (contrast : Byte) (vccExt : Bool)
  /-- R121: first and last column, first and last page, all unsigned. -/
  | setWindow (c0 c1 : BitVec 8) (p0 p1 : BitVec 5)
  /-- R122: true is `SET_POWER ON`. -/
  | setPower (flag : Bool)
  /-- R124 -/
  | setContrast (val : Byte)
  /-- R125: true is inverse display. -/
  | setInverted (flag : Bool)
  /-- R142 -/
  | setPixel (x y : Int) (v : PixelValue)
  /-- R143 -/
  | getPixel (x y : Int)
  /-- R144 -/
  | clear
  /-- R197 -/
  | flush
  /-- R200 -/
  | close
deriving DecidableEq, Repr

end Sys2Proof
end

