-- ==== Sys2Proof/WellFormed.lean ====
section
/-! DEFINITION. Which terms of `Instr` have an encoding: the operands that fit their fields (R87, R94). -/

namespace Sys2Proof

/-- A coordinate that a two's-complement 12-bit field holds: -2048..2047 (R87). -/
def coordFits (x : Int) : Bool := decide (-2048 ≤ x) && decide (x ≤ 2047)

/-- An instruction some command word stands for (R94: an assembler refuses an operand out of its field). Every
other operand is a bit field of the encoding's own width or a named value, and so always fits. -/
def Instr.wf : Instr → Bool
  | .nop => true
  | .begin _ _ _ => true
  | .setWindow _ _ _ _ => true
  | .setPower _ => true
  | .setContrast _ => true
  | .setInverted _ => true
  | .setPixel x y _ => coordFits x && coordFits y
  | .getPixel x y => coordFits x && coordFits y
  | .clear => true
  | .flush => true
  | .close => true

end Sys2Proof
end

