-- ==== Sys2Proof/Decode.lean ====
section
/-! DEFINITION. Decoding and encoding of the 32-bit command word (R80 to R93), both written from the formats N, I,
W, B, C, P of R82 to R87. Decoding is total on all 2^32 words and refuses an illegal word by name. -/

namespace Sys2Proof

/-- Why a word is illegal: the conditions of R88. The names are the model's (DESIGN CHOICE, log 13). -/
inductive Illegal
  | reservedBits        -- a reserved-must-be-zero field is not zero
  | reservedMode        -- BEGIN with MODE = 3
  | reservedPixelValue  -- SET_PIXEL with V = 3
  | getPixelValue       -- GET_PIXEL with V != 0
  | reservedOpcode      -- OP is 0xB to 0xF (R90)
deriving DecidableEq, Repr

/-- What `decode` answers: an instruction, or the reason the word has none. -/
inductive Decoded
  | legal (i : Instr)
  | illegal (why : Illegal)
deriving DecidableEq, Repr

/-- MODE as the field holds it: 0 HORIZONTAL, 1 VERTICAL, 2 PAGE (R31). -/
def Mode.toBits : Mode → BitVec 2
  | .horizontal => 0
  | .vertical => 1
  | .page => 2

/-- The mode a MODE field stands for; 3 is reserved (R31, R88). -/
def Mode.ofBits (b : BitVec 2) : Option Mode :=
  match b.toNat with
  | 0 => some .horizontal
  | 1 => some .vertical
  | 2 => some .page
  | _ => none

/-- V as the field holds it: 0 OFF, 1 ON, 2 INVERT (R9). -/
def PixelValue.toBits : PixelValue → BitVec 2
  | .off => 0
  | .on => 1
  | .invert => 2

/-- The pixel value a V field stands for; 3 is reserved (R9, R88). -/
def PixelValue.ofBits (b : BitVec 2) : Option PixelValue :=
  match b.toNat with
  | 0 => some .off
  | 1 => some .on
  | 2 => some .invert
  | _ => none

/-- The opcode field OP = cmd[31:28] (R80). -/
def opField (w : Word) : BitVec 4 := w.extractLsb' 28 4

/-- The field X = cmd[23:12], sign-extended (R92). -/
def xField (w : Word) : Int := (w.extractLsb' 12 12).toInt

/-- The field Y = cmd[11:0], sign-extended (R92). -/
def yField (w : Word) : Int := (w.extractLsb' 0 12).toInt

/-- A word of format N (R82): the instruction, when bits [27:0] are 0. -/
def decodeN (i : Instr) (w : Word) : Decoded :=
  if w.extractLsb' 0 28 = 0 then .legal i else .illegal .reservedBits

/-- A word of format I (R83). -/
def decodeI (w : Word) : Decoded :=
  if w.extractLsb' 11 17 = 0 then
    match Mode.ofBits (w.extractLsb' 8 2) with
    | some m => .legal (.begin m (w.extractLsb' 0 8) (w.getLsbD 10))
    | none => .illegal .reservedMode
  else .illegal .reservedBits

/-- A word of format W (R86). -/
def decodeW (w : Word) : Decoded :=
  if w.extractLsb' 26 2 = 0 then
    .legal (.setWindow (w.extractLsb' 18 8) (w.extractLsb' 10 8) (w.extractLsb' 5 5) (w.extractLsb' 0 5))
  else .illegal .reservedBits

/-- A word of format B (R84): the instruction made of FLAG = cmd[0]. -/
def decodeB (mk : Bool → Instr) (w : Word) : Decoded :=
  if w.extractLsb' 1 27 = 0 then .legal (mk (w.getLsbD 0)) else .illegal .reservedBits

/-- A word of format C (R85). -/
def decodeC (w : Word) : Decoded :=
  if w.extractLsb' 8 20 = 0 then .legal (.setContrast (w.extractLsb' 0 8)) else .illegal .reservedBits

/-- A SET_PIXEL word of format P (R87). -/
def decodeSetPixel (w : Word) : Decoded :=
  if w.extractLsb' 26 2 = 0 then
    match PixelValue.ofBits (w.extractLsb' 24 2) with
    | some v => .legal (.setPixel (xField w) (yField w) v)
    | none => .illegal .reservedPixelValue
  else .illegal .reservedBits

/-- A GET_PIXEL word of format P (R87): V must be 0. -/
def decodeGetPixel (w : Word) : Decoded :=
  if w.extractLsb' 26 2 = 0 then
    if w.extractLsb' 24 2 = 0 then .legal (.getPixel (xField w) (yField w)) else .illegal .getPixelValue
  else .illegal .reservedBits

/-- Decode (R93), by the opcode map of R89. -/
def decode (w : Word) : Decoded :=
  match (opField w).toNat with
  | 0x0 => decodeN .nop w
  | 0x1 => decodeI w
  | 0x2 => decodeW w
  | 0x3 => decodeB .setPower w
  | 0x4 => decodeC w
  | 0x5 => decodeB .setInverted w
  | 0x6 => decodeSetPixel w
  | 0x7 => decodeGetPixel w
  | 0x8 => decodeN .clear w
  | 0x9 => decodeN .flush w
  | 0xA => decodeN .close w
  | _ => .illegal .reservedOpcode

/-- The word of an instruction (R82 to R87, R94), most significant field first. -/
def encode : Instr → Word
  | .nop => word (0x0#4 ++ 0#28)
  | .begin m c v => word (0x1#4 ++ 0#17 ++ BitVec.ofBool v ++ m.toBits ++ c)
  | .setWindow c0 c1 p0 p1 => word (0x2#4 ++ 0#2 ++ c0 ++ c1 ++ p0 ++ p1)
  | .setPower f => word (0x3#4 ++ 0#27 ++ BitVec.ofBool f)
  | .setContrast v => word (0x4#4 ++ 0#20 ++ v)
  | .setInverted f => word (0x5#4 ++ 0#27 ++ BitVec.ofBool f)
  | .setPixel x y v => word (0x6#4 ++ 0#2 ++ v.toBits ++ BitVec.ofInt 12 x ++ BitVec.ofInt 12 y)
  | .getPixel x y => word (0x7#4 ++ 0#4 ++ BitVec.ofInt 12 x ++ BitVec.ofInt 12 y)
  | .clear => word (0x8#4 ++ 0#28)
  | .flush => word (0x9#4 ++ 0#28)
  | .close => word (0xA#4 ++ 0#28)

/-- The "match" column of the opcode table: the fixed bits of an instruction's row. -/
def tableMatch : Instr → Word
  | .nop => 0x00000000
  | .begin _ _ _ => 0x10000000
  | .setWindow _ _ _ _ => 0x20000000
  | .setPower _ => 0x30000000
  | .setContrast _ => 0x40000000
  | .setInverted _ => 0x50000000
  | .setPixel _ _ _ => 0x60000000
  | .getPixel _ _ => 0x70000000
  | .clear => 0x80000000
  | .flush => 0x90000000
  | .close => 0xA0000000

/-- The "mask" column of the opcode table: which bits of an instruction's row are fixed. -/
def tableMask : Instr → Word
  | .nop => 0xFFFFFFFF
  | .begin _ _ _ => 0xFFFFF800
  | .setWindow _ _ _ _ => 0xFC000000
  | .setPower _ => 0xFFFFFFFE
  | .setContrast _ => 0xFFFFFF00
  | .setInverted _ => 0xFFFFFFFE
  | .setPixel _ _ _ => 0xFC000000
  | .getPixel _ _ => 0xFF000000
  | .clear => 0xFFFFFFFF
  | .flush => 0xFFFFFFFF
  | .close => 0xFFFFFFFF

/-- The instruction the decoder reads from a command whose bits are `w`, numbered as the opcode table numbers
them; bits at and above `nbits` are 0. -/
def decodeTableWord (nbits w : Nat) : Option Instr :=
  match decode (BitVec.ofNat 32 (w % 2 ^ nbits)) with
  | .legal i => some i
  | .illegal _ => none

end Sys2Proof
end

