-- ==== Sys2Proof/Config.lean ====
section
/-! DEFINITION. What an implementation fixes (R5, R21, R110) and the free values of the model. A `Config` is plain
data: the state holds the one its last reset fixed, and every claim is over whichever it holds. -/

namespace Sys2Proof

/-- CMDTAB: the wire byte of each panel command (R110). -/
structure CmdTab where
  displayOff : Byte
  displayOn : Byte
  setClkdiv : Byte
  setMultiplex : Byte
  setChargePump : Byte
  chargePumpInt : Byte
  chargePumpExt : Byte
  setAddrMode : Byte
  modeArgHorizontal : Byte
  modeArgVertical : Byte
  modeArgPage : Byte
  setContrast : Byte
  normalDisplay : Byte
  invertDisplay : Byte
  columnAddr : Byte
  pageAddr : Byte
  pageStartBase : Byte
  colLowBase : Byte
  colHighBase : Byte
deriving DecidableEq, Repr

/-- The defaults of R110, the SSD1306 command set (PRESUMED, as the spec itself marks them: log 7). -/
def CmdTab.ssd1306 : CmdTab where
  displayOff := 0xAE
  displayOn := 0xAF
  setClkdiv := 0xD5
  setMultiplex := 0xA8
  setChargePump := 0x8D
  chargePumpInt := 0x14
  chargePumpExt := 0x10
  setAddrMode := 0x20
  modeArgHorizontal := 0x00
  modeArgVertical := 0x01
  modeArgPage := 0x02
  setContrast := 0x81
  normalDisplay := 0xA6
  invertDisplay := 0xA7
  columnAddr := 0x21
  pageAddr := 0x22
  pageStartBase := 0xB0
  colLowBase := 0x00
  colHighBase := 0x10

/-- MODE_ARG[mode] (R110). -/
def CmdTab.modeArg (t : CmdTab) : Mode → Byte
  | .horizontal => t.modeArgHorizontal
  | .vertical => t.modeArgVertical
  | .page => t.modeArgPage

/-- The parameters of the block (R5), and BASE, the address the platform gives its register window (R21, R67). -/
structure Config where
  width : Nat
  height : Nat
  maxXfer : Nat
  /-- No rule reads the length of the power-up delay (R262, I12): it is held because R5 names it. -/
  powerupDelay : Nat
  clkdiv : Byte
  cmdtab : CmdTab
  /-- Any address: the spec does not say that it is a multiple of 4 (DESIGN CHOICE, log 18). -/
  base : Nat
deriving DecidableEq, Repr

/-- PAGES = (HEIGHT + 7) >> 3 (R5, R75). -/
def Config.pages (c : Config) : Nat := (c.height + 7) / 8

/-- FB_BYTES = PAGES * WIDTH (R5). -/
def Config.fbBytes (c : Config) : Nat := c.pages * c.width

/-- The ranges of R5: 1 ≤ WIDTH ≤ 128, 1 ≤ HEIGHT ≤ 64, MAX_XFER ≥ 1. -/
def Config.wf (c : Config) : Bool :=
  decide (1 ≤ c.width) && decide (c.width ≤ 128) && decide (1 ≤ c.height) && decide (c.height ≤ 64) &&
    decide (1 ≤ c.maxXfer)

/-! The open parameters of the chip that `State.reset` is about: constants without a body (DESIGN CHOICE, log 1), brought into the
ranges of R5, so that nothing can be proved from their values but those ranges. -/

opaque Config.freeWidth : Nat
opaque Config.freeHeight : Nat
opaque Config.freeMaxXfer : Nat
opaque Config.freePowerupDelay : Nat
opaque Config.freeBase : Nat

/-- The implementation `State.reset` starts: open parameters free within R5, CLKDIV and CMDTAB at the defaults R5
and R110 give. -/
def Config.chip : Config where
  width := Config.freeWidth % 128 + 1
  height := Config.freeHeight % 64 + 1
  maxXfer := Config.freeMaxXfer + 1
  powerupDelay := Config.freePowerupDelay
  clkdiv := 0x80
  cmdtab := CmdTab.ssd1306
  base := Config.freeBase

/-- FREE VALUE (DESIGN CHOICE, log 2): the byte the draw FB_RESET gives framebuffer address `a` at reset (R5, R40, I7). -/
opaque Config.fbResetDraw : Nat → Byte

/-- The draw FB_RESET of a chip: FB_BYTES free bytes. -/
def Config.freeDraw (c : Config) : List Byte := (List.range c.fbBytes).map Config.fbResetDraw

end Sys2Proof
end

