-- ==== Sys2Proof/Machine/State.lean ====
section
/-! DEFINITION. The state of the block as plain data (R20 to R41), the events the other agents of R228 bring to it,
the reasons a step stops, and the state after reset (R40, R250). -/

namespace Sys2Proof.Machine

/-- Why a step stops in error. -/
inductive Fault
  /-- Raised by a host access (`hostWrite`, `hostRead`) to an address outside the 32 bytes of the register window:
  no such address exists in the block (R66). SAFE: the access is not the block's, and nothing is claimed of it. -/
  | outsideWindow
deriving DecidableEq, Repr

/-- Why a step declines. -/
inductive Refusal
  /-- Raised by `exec` for an instruction that has no meaning yet. SAFE. No arm uses it. -/
  | notModelled (mnemonic : String)
  /-- Raised by a host access whose width is not 32 bits (R63, I16: a model refuses it). SAFE. -/
  | accessWidth
  /-- Raised by a host access at an offset that is no multiple of 4 (R63, I16: a model refuses it). SAFE. -/
  | accessUnaligned
  /-- Raised by a platform reset whose parameters are outside the ranges of R5, or whose FB_RESET draw is not
  FB_BYTES bytes: no block of this spec has them. SAFE. -/
  | resetParameters
deriving DecidableEq, Repr

/-- The controller state, STATUS.STATE (R25). -/
inductive CtrlState
  | uninitialized
  | poweredOff
  | active
  | sleeping
deriving DecidableEq, Repr

/-- A result code (R220), and with the same numbering a cause (R221). The codes 7 to 15 are never written. -/
inductive Code
  | ok
  | transportError
  | protocolError
  | invalidState
  | outOfRange
  | initializationError
  | illegalCommand
deriving DecidableEq, Repr

/-- An address window: the WINDOW register (R32) and the operands of SET_WINDOW (R86). -/
structure Window where
  c0 : BitVec 8
  c1 : BitVec 8
  p0 : BitVec 5
  p1 : BitVec 5
deriving DecidableEq, Repr

/-- A transaction of the Bus Transport, as the trace records it (R37). -/
inductive Xact
  | cmd (b : Byte)
  | cmdSeq (bs : List Byte)
  | data (bs : List Byte)
  | reset
deriving DecidableEq, Repr

/-- What the sequencer waits for: the answer of the one outstanding Bus Transport call (R35), or the end of
`Wait(POWERUP_DELAY)` (R114). -/
inductive Pending
  | busCall
  | powerupDelay
deriving DecidableEq, Repr

/-- The command in progress (R35): which command, the position in its fixed list of steps (counted from 0), and
what that step waits for. -/
structure Running where
  cmd : Instr
  pos : Nat
  pending : Pending
deriving DecidableEq, Repr

/-- What ends a wait of the sequencer: the Bus Transport's answer OK or ERR (R232), or the power-up delay having
elapsed (R114). -/
inductive Reply
  | ok
  | err
  | elapsed
deriving DecidableEq, Repr

/-- What the other agents do to the block (R228, R250): the host's accesses to the register window, with address,
width in bytes and, for a write, the data; a reply; a reset by the platform, with the parameters it fixes and the
draw FB_RESET. -/
inductive Event
  | write (addr width : Nat) (data : Word)
  | read (addr width : Nat)
  | reply (r : Reply)
  | reset (cfg : Config) (draw : List Byte)
deriving DecidableEq, Repr

/-- The state. STATUS.ACTIVE and STATUS.BUSY are no fields: ACTIVE is computed from `ctrlState` (R26) and BUSY from
`seq` (R28, R35, R41), each with one home (DESIGN CHOICE, log 16). DIM is computed from `cfg` (R33). -/
structure State where
  /-- The parameters the last reset fixed (R5). -/
  cfg : Config
  /-- STATUS.STATE (R25). -/
  ctrlState : CtrlState
  /-- STATUS.OPEN (R27). -/
  isOpen : Bool
  /-- STATUS.CODE (R24). -/
  code : Code
  /-- STATUS.CAUSE (R24). -/
  cause : Code
  /-- STATUS.PIXEL (R29). -/
  pixel : Bool
  /-- CTRL.CONTRAST (R30). -/
  contrast : Byte
  /-- CTRL.MODE (R31). -/
  mode : Mode
  /-- CTRL.VCCEXT (R30). -/
  vccExt : Bool
  /-- CTRL.INVERTED (R30). -/
  inverted : Bool
  /-- WINDOW (R32). -/
  window : Window
  /-- The draw FB_RESET of the last reset (R40): what a framebuffer byte not listed in `fb` holds. -/
  fbReset : List Byte
  /-- The framebuffer (R34), in the canonical form `Memory.wf`: the bytes that differ from `fbReset`. -/
  fb : List Host.Cell
  /-- The sequencer (R35): `none` is idle. -/
  seq : Option Running
  /-- The trace (R37), oldest transaction first. -/
  trace : List Xact
  /-- CMD writes offered and not yet accepted (R22; DEDUCED, log 4), oldest first. -/
  port : List Word
  /-- The MODEL's own field: what the other agents do next, in order. Free: nothing constrains it (DESIGN CHOICE,
  log 3). -/
  env : List Event
  /-- The MODEL's own field: the word the last register read gave the host (DESIGN CHOICE, log 5). -/
  readData : Word
deriving DecidableEq, Repr

/-- The window (0, WIDTH - 1, p0, p1) of the full width (R40, R115, R195). -/
def fullWidth (c : Config) (p0 p1 : Nat) : Window :=
  ⟨0, BitVec.ofNat 8 (c.width - 1), BitVec.ofNat 5 p0, BitVec.ofNat 5 p1⟩

/-- The state after a reset that fixes the parameters `c` and draws `draw` (R40, R250), with no event to come. -/
def State.resetTo (c : Config) (draw : List Byte) : State where
  cfg := c
  ctrlState := .uninitialized
  isOpen := true
  code := .ok
  cause := .ok
  pixel := false
  contrast := 0x00
  mode := .page
  vccExt := false
  inverted := false
  window := fullWidth c 0 (c.pages - 1)
  fbReset := draw
  fb := []
  seq := none
  trace := []
  port := []
  env := []
  readData := 0

/-- The machine right after reset (R40): the chip of `Config.chip`, its draw free. -/
def State.reset : State := State.resetTo Config.chip Config.chip.freeDraw

end Sys2Proof.Machine
end

