-- ==== Sys2Proof/Machine/Operands.lean ====
section
/-! DEFINITION. The operands of commands: pixel coordinates and their place in the framebuffer (R60, R61), address
windows and their bounds (R120). All tests are on integers (R75). -/

namespace Sys2Proof.Machine

/-- Pixel (x, y) lies in the framebuffer: 0 ≤ x < WIDTH and 0 ≤ y < HEIGHT (R61, R140). -/
def inBounds (c : Config) (x y : Int) : Bool :=
  decide (0 ≤ x) && decide (x < c.width) && decide (0 ≤ y) && decide (y < c.height)

/-- The byte address of PixAddr(x, y): (y >> 3) * WIDTH + x (R61). -/
def pixByte (c : Config) (x y : Int) : Nat := y.toNat / 8 * c.width + x.toNat

/-- The bit number of PixAddr(x, y): y & 7 (R61). -/
def pixBit (y : Int) : Nat := y.toNat % 8

/-- InWindow (R120): c0 <= c1 < WIDTH and p0 <= p1 < PAGES. -/
def inWindow (c : Config) (w : Window) : Bool :=
  decide (w.c0.toNat ≤ w.c1.toNat) && decide (w.c1.toNat < c.width) &&
    decide (w.p0.toNat ≤ w.p1.toNat) && decide (w.p1.toNat < c.pages)

/-- The window offset of a host address: `none` outside the 32 bytes at BASE (R21, R66). -/
def windowOffset (c : Config) (addr : Nat) : Option Nat :=
  if c.base ≤ addr ∧ addr < c.base + 32 then some (addr - c.base) else none

end Sys2Proof.Machine
end

