-- ==== Sys2Proof/Machine/Ops.lean ====
section
/-! DEFINITION. The named operations over the framebuffer and the registers: the framebuffer store and its canonical
form (R34, R62), `MemRead`, `MemWrite`, the pixel primitives (R140, R141), the serialisation (R145), the trace
(R37), and `complete` with `raise` (R8, R24), the one way a command ends. The block has no exceptions (R224): an error
is a `raise`, and there is no return from one (R225). -/

namespace Sys2Proof.Machine

/-! ### The store: a list of cells over a default -/

/-- The listed byte at `a`, if there is one. -/
def Memory.lookup : List Host.Cell → Nat → Option Byte
  | [], _ => none
  | (b, v) :: m, a => if b = a then some v else Memory.lookup m a

/-- The list without an entry for `a`. -/
def Memory.erase : List Host.Cell → Nat → List Host.Cell
  | [], _ => []
  | (b, v) :: m, a => if b = a then m else (b, v) :: Memory.erase m a

/-- The list with the entry (a, v), in rising order of addresses. -/
def Memory.insert : List Host.Cell → Nat → Byte → List Host.Cell
  | [], a, v => [(a, v)]
  | (b, u) :: m, a, v =>
    if b = a then (a, v) :: m
    else if a < b then (a, v) :: (b, u) :: m
    else (b, u) :: Memory.insert m a v

/-- What an unlisted address reads as: the reset draw FB_RESET (R40; log 2). -/
def Memory.unlisted (draw : List Byte) (a : Nat) : Byte := draw.getD a 0

/-- Reading one byte. -/
def Memory.read (draw : List Byte) (m : List Host.Cell) (a : Nat) : Byte :=
  (Memory.lookup m a).getD (Memory.unlisted draw a)

/-- Writing one byte, keeping the canonical form: an entry equal to what an unlisted address reads as goes. -/
def Memory.write (draw : List Byte) (m : List Host.Cell) (a : Nat) (v : Byte) : List Host.Cell :=
  if v = Memory.unlisted draw a then Memory.erase m a else Memory.insert m a v

/-- Addresses strictly rising, each at least `lo`. -/
def Memory.rising : Nat → List Host.Cell → Bool
  | _, [] => true
  | lo, (a, _) :: m => decide (lo ≤ a) && Memory.rising (a + 1) m

/-- The canonical form of a framebuffer of `n` bytes: addresses strictly rising and below `n`, and no entry equal to
what an unlisted address reads as. -/
def Memory.wf (draw : List Byte) (n : Nat) (m : List Host.Cell) : Bool :=
  Memory.rising 0 m && m.all (fun c => decide (c.1 < n) && decide (c.2 ≠ Memory.unlisted draw c.1))

/-! ### The framebuffer -/

/-- MemRead(a, 1) (R8): framebuffer byte FB[a]. -/
def State.memRead (s : State) (a : Nat) : Byte := Memory.read s.fbReset s.fb a

/-- MemWrite(a, 1, v) (R8): FB[a] <- v. -/
def State.memWrite (s : State) (a : Nat) (v : Byte) : State :=
  { s with fb := Memory.write s.fbReset s.fb a v }

/-- The new value of a byte whose bit `n` a pixel write sets: OFF clears, ON sets, INVERT flips (R140). -/
def pixelByte (v : PixelValue) (n : Nat) (b : Byte) : Byte :=
  match v with
  | .off => b &&& ~~~(1#8 <<< n)
  | .on => b ||| (1#8 <<< n)
  | .invert => b ^^^ (1#8 <<< n)

/-- WritePixel (R140): outside the framebuffer nothing changes. -/
def State.writePixel (s : State) (x y : Int) (v : PixelValue) : State :=
  if inBounds s.cfg x y then
    s.memWrite (pixByte s.cfg x y) (pixelByte v (pixBit y) (s.memRead (pixByte s.cfg x y)))
  else s

/-- ReadPixel (R141), true for ON: outside the framebuffer OFF. -/
def State.readPixel (s : State) (x y : Int) : Bool :=
  inBounds s.cfg x y && (s.memRead (pixByte s.cfg x y)).getLsbD (pixBit y)

/-- The framebuffer writes of CLEAR (R144): MemWrite(a, 1, 0) for a in 0 .. FB_BYTES - 1. -/
def State.clearFb (s : State) : State :=
  { s with fb := (List.range s.cfg.fbBytes).foldl (fun m a => Memory.write s.fbReset m a 0) s.fb }

/-- PageBlock(p) (R145): the bytes of page p, column 0 first. -/
def State.pageBlock (s : State) (p : Nat) : List Byte :=
  (List.range s.cfg.width).map (fun c => s.memRead (p * s.cfg.width + c))

/-- AsPages() (R145): page 0 first, and within a page column 0 first. -/
def State.asPages (s : State) : List Byte := (List.range s.cfg.pages).flatMap s.pageBlock

/-! ### The trace and the end of a command -/

/-- Appends a transaction to the trace (R37). -/
def State.record (s : State) (x : Xact) : State := { s with trace := s.trace ++ [x] }

/-- complete(code, cause) (R8, R24): writes the result fields and clears BUSY (the sequencer is idle). -/
def State.complete (s : State) (code cause : Code) : State :=
  { s with code := code, cause := cause, seq := none }

/-- raise E(c) (R8): complete(E, c) with no further state written by the command. Cause 0 is written `.ok`. -/
def State.raise (s : State) (code cause : Code) : State := s.complete code cause

/-- Holds a CMD write offered while BUSY (R22): none lost, none reordered. -/
def State.hold (s : State) (w : Word) : State := { s with port := s.port ++ [w] }

end Sys2Proof.Machine
end

