-- ==== Sys2Proof/Machine/Flags.lean ====
section
/-! DEFINITION. The host-visible registers as words: STATUS (R23), CTRL (R30), WINDOW (R32), DIM (R33), the number
codes of their fields, and the read of a register by its offset (R21). -/

namespace Sys2Proof.Machine

/-- STATUS.BUSY (R28, R35): a command is executing. -/
def State.busy (s : State) : Bool := s.seq.isSome

/-- STATUS.ACTIVE (R26), the accessor isActive() (R201). -/
def State.isActive (s : State) : Bool := decide (s.ctrlState = .active)

/-- STATE as its field holds it (R25). -/
def CtrlState.toBits : CtrlState → BitVec 2
  | .uninitialized => 0
  | .poweredOff => 1
  | .active => 2
  | .sleeping => 3

/-- CODE and CAUSE as their fields hold them (R220, R221). -/
def Code.toBits : Code → BitVec 4
  | .ok => 0
  | .transportError => 1
  | .protocolError => 2
  | .invalidState => 3
  | .outOfRange => 4
  | .initializationError => 5
  | .illegalCommand => 6

/-- The STATUS word (R23). -/
def State.statusWord (s : State) : Word :=
  word (0#15 ++ BitVec.ofBool s.pixel ++ s.cause.toBits ++ s.code.toBits ++ 0#3 ++ BitVec.ofBool s.busy ++
    BitVec.ofBool s.isOpen ++ BitVec.ofBool s.isActive ++ s.ctrlState.toBits)

/-- The CTRL word (R30). -/
def State.ctrlWord (s : State) : Word :=
  word (0#20 ++ BitVec.ofBool s.inverted ++ BitVec.ofBool s.vccExt ++ s.mode.toBits ++ s.contrast)

/-- The WINDOW word (R32). -/
def Window.toWord (w : Window) : Word := word (0#6 ++ w.c0 ++ w.c1 ++ w.p0 ++ w.p1)

/-- The DIM word (R33). -/
def dimWord (c : Config) : Word :=
  word (0#12 ++ BitVec.ofNat 4 c.pages ++ BitVec.ofNat 8 c.height ++ BitVec.ofNat 8 c.width)

/-- The word a read of the register at a byte offset returns (R21): CMD and the reserved offsets read 0. -/
def State.readRegister (s : State) (offset : Nat) : Word :=
  match offset with
  | 0x04 => s.statusWord
  | 0x08 => s.ctrlWord
  | 0x0C => s.window.toWord
  | 0x10 => dimWord s.cfg
  | _ => 0

/-- The accessor width() (R201): DIM[7:0]. -/
def State.widthField (s : State) : BitVec 8 := (s.readRegister 0x10).extractLsb' 0 8

/-- The accessor height() (R201): DIM[15:8]. -/
def State.heightField (s : State) : BitVec 8 := (s.readRegister 0x10).extractLsb' 8 8

end Sys2Proof.Machine
end

