-- ==== Sys2Proof/Machine/Driver.lean ====
section
/-! DEFINITION. The controller protocol driver: the state gate (R111), what each command sends to the Bus Transport,
step by step, and the writes of its completion. A command's steps are fixed when it is accepted: no state they are
read from changes while it runs (R24, R70, R196; DEDUCED, log 17). -/

namespace Sys2Proof.Machine

/-- One step of a command: a transaction, or `Wait(POWERUP_DELAY)` (R8). -/
inductive Item
  | tx (x : Xact)
  | wait
deriving DecidableEq, Repr

/-- DriverGate (R111): driver commands pass in ACTIVE and SLEEPING, and SET_POWER with FLAG = 1 always. -/
def driverGate (i : Instr) (s : State) : Bool :=
  match s.ctrlState with
  | .active => true
  | .sleeping => true
  | .uninitialized => decide (i = .setPower true)
  | .poweredOff => decide (i = .setPower true)

/-- EmitWindow (R113): one CMDSEQ, its bytes by the addressing mode. -/
def emitWindow (t : CmdTab) (mode : Mode) (w : Window) : Xact :=
  match mode with
  | .horizontal => .cmdSeq [t.columnAddr, w.c0, w.c1, t.pageAddr, w.p0.setWidth 8, w.p1.setWidth 8]
  | .vertical => .cmdSeq [t.columnAddr, w.c0, w.c1, t.pageAddr, w.p0.setWidth 8, w.p1.setWidth 8]
  | .page => .cmdSeq [t.pageStartBase ||| w.p0.setWidth 8, t.colLowBase ||| (w.c0 &&& 0x0F),
      t.colHighBase ||| (w.c0 >>> 4)]

/-- Initialize (R114): RESET, the wait, then the seven init steps. -/
def beginItems (c : Config) (mode : Mode) (contrast : Byte) (vccExt : Bool) : List Item :=
  [.tx .reset,
   .wait,
   .tx (.cmd c.cmdtab.displayOff),
   .tx (.cmdSeq [c.cmdtab.setClkdiv, c.clkdiv]),
   .tx (.cmdSeq [c.cmdtab.setMultiplex, BitVec.ofNat 8 (c.height - 1)]),
   .tx (.cmdSeq [c.cmdtab.setChargePump, if vccExt then c.cmdtab.chargePumpExt else c.cmdtab.chargePumpInt]),
   .tx (.cmdSeq [c.cmdtab.setAddrMode, c.cmdtab.modeArg mode]),
   .tx (.cmdSeq [c.cmdtab.setContrast, contrast]),
   .tx (.cmd c.cmdtab.displayOn)]

/-- The blocks PushPages cuts a byte list into (R117): greedily, at most `k` bytes each. The first argument bounds
the number of blocks; the length of the list is enough when k ≥ 1 (log 12). -/
def chunksUpTo : Nat → Nat → List Byte → List (List Byte)
  | 0, _, _ => []
  | n + 1, k, bs => if bs.isEmpty then [] else bs.take k :: chunksUpTo n k (bs.drop k)

/-- The blocks of PushPages (R117) with MAX_XFER = k. -/
def chunks (k : Nat) (bs : List Byte) : List (List Byte) := chunksUpTo bs.length k bs

/-- PushPages (R117): the DATA transactions of a byte list. -/
def pushPages (c : Config) (bs : List Byte) : List Item := (chunks c.maxXfer bs).map (fun b => .tx (.data b))

/-- The one-page part of a flush plan in VERTICAL and PAGE modes (R195). -/
def State.flushPage (s : State) (p : Nat) : List Item :=
  .tx (emitWindow s.cfg.cmdtab s.mode (fullWidth s.cfg p p)) :: pushPages s.cfg (s.pageBlock p)

/-- FlushPlan (R195). -/
def State.flushItems (s : State) : List Item :=
  match s.mode with
  | .horizontal =>
    .tx (emitWindow s.cfg.cmdtab s.mode (fullWidth s.cfg 0 (s.cfg.pages - 1))) :: pushPages s.cfg s.asPages
  | .vertical => (List.range s.cfg.pages).flatMap s.flushPage
  | .page => (List.range s.cfg.pages).flatMap s.flushPage

/-- The final window of FlushPlan (R195). -/
def State.flushWindow (s : State) : Window :=
  match s.mode with
  | .horizontal => fullWidth s.cfg 0 (s.cfg.pages - 1)
  | .vertical => fullWidth s.cfg (s.cfg.pages - 1) (s.cfg.pages - 1)
  | .page => fullWidth s.cfg (s.cfg.pages - 1) (s.cfg.pages - 1)

/-! ### Completions -/

/-- A driver command or FLUSH whose transaction answered ERR (R112): no completion writes. -/
def transportFailed (s : State) : State := s.raise .protocolError .transportError

/-- BEGIN's success (R115). -/
def beginDone (mode : Mode) (contrast : Byte) (vccExt : Bool) (s : State) : State :=
  { s with
    ctrlState := .active
    contrast := contrast
    mode := mode
    vccExt := vccExt
    inverted := false
    window := fullWidth s.cfg 0 (s.cfg.pages - 1) }.complete .ok .ok

/-- BEGIN's failure (R116, R193): UNINITIALIZED, and nothing else. -/
def beginFailed (s : State) : State :=
  { s with ctrlState := .uninitialized }.complete .initializationError .protocolError

/-- SET_WINDOW's success (R121). -/
def setWindowDone (w : Window) (s : State) : State := { s with window := w }.complete .ok .ok

/-- SET_POWER's success after its transaction (R122). -/
def setPowerDone (flag : Bool) (s : State) : State :=
  { s with ctrlState := if flag then .active else .poweredOff }.complete .ok .ok

/-- SET_CONTRAST's success (R124). -/
def setContrastDone (val : Byte) (s : State) : State := { s with contrast := val }.complete .ok .ok

/-- SET_INVERTED's success (R125). -/
def setInvertedDone (flag : Bool) (s : State) : State := { s with inverted := flag }.complete .ok .ok

/-- FLUSH's success (R197). -/
def flushDone (s : State) : State := { s with window := s.flushWindow }.complete .ok .ok

/-- CLOSE after a power-off that succeeded (R200). -/
def closeDone (s : State) : State :=
  { s with ctrlState := .poweredOff, isOpen := false }.complete .ok .ok

/-- CLOSE when no power-off succeeded (R200): STATE unchanged, the cause says why. -/
def closeUnpowered (cause : Code) (s : State) : State := { s with isOpen := false }.complete .ok cause

end Sys2Proof.Machine
end

