-- ==== Sys2Proof/Machine/Sequencer.lean ====
section
/-! DEFINITION. The sequencer (R35, R71, R190): it takes a command in progress through its steps, one Bus Transport
call outstanding at a time, and ends it. -/

namespace Sys2Proof.Machine

/-- The steps of a command, in the order its rule lists them. A command that issues no transaction has none. -/
def items (s : State) : Instr → List Item
  | .nop => []
  | .begin mode contrast vccExt => beginItems s.cfg mode contrast vccExt
  | .setWindow c0 c1 p0 p1 => [.tx (emitWindow s.cfg.cmdtab s.mode ⟨c0, c1, p0, p1⟩)]
  | .setPower flag => [.tx (.cmd (if flag then s.cfg.cmdtab.displayOn else s.cfg.cmdtab.displayOff))]
  | .setContrast val => [.tx (.cmdSeq [s.cfg.cmdtab.setContrast, val])]
  | .setInverted flag => [.tx (.cmd (if flag then s.cfg.cmdtab.invertDisplay else s.cfg.cmdtab.normalDisplay))]
  | .setPixel _ _ _ => []
  | .getPixel _ _ => []
  | .clear => []
  | .flush => s.flushItems
  | .close => [.tx (.cmd s.cfg.cmdtab.displayOff)]

/-- The completion of a command all of whose steps went through. -/
def finish (i : Instr) (s : State) : State :=
  match i with
  | .nop => s.complete .ok .ok
  | .begin mode contrast vccExt => beginDone mode contrast vccExt s
  | .setWindow c0 c1 p0 p1 => setWindowDone ⟨c0, c1, p0, p1⟩ s
  | .setPower flag => setPowerDone flag s
  | .setContrast val => setContrastDone val s
  | .setInverted flag => setInvertedDone flag s
  | .setPixel _ _ _ => s.complete .ok .ok
  | .getPixel _ _ => s.complete .ok .ok
  | .clear => s.complete .ok .ok
  | .flush => flushDone s
  | .close => closeDone s

/-- The completion of a command one of whose calls answered ERR: R112, but R116 for BEGIN and R200 for CLOSE. -/
def fail (i : Instr) (s : State) : State :=
  match i with
  | .nop => transportFailed s
  | .begin _ _ _ => beginFailed s
  | .setWindow _ _ _ _ => transportFailed s
  | .setPower _ => transportFailed s
  | .setContrast _ => transportFailed s
  | .setInverted _ => transportFailed s
  | .setPixel _ _ _ => transportFailed s
  | .getPixel _ _ => transportFailed s
  | .clear => transportFailed s
  | .flush => transportFailed s
  | .close => closeUnpowered .protocolError s

/-- Issues the steps from position `k` on: RESET has no result and always completes (R37, R232), every other
transaction and the wait hold the sequencer; at the end of the list the command completes. -/
def issue (i : Instr) : Nat → List Item → State → State
  | _, [], s => finish i s
  | k, .tx .reset :: rest, s => issue i (k + 1) rest (s.record .reset)
  | k, .tx (.cmd b) :: _, s => { s.record (.cmd b) with seq := some ⟨i, k, .busCall⟩ }
  | k, .tx (.cmdSeq bs) :: _, s => { s.record (.cmdSeq bs) with seq := some ⟨i, k, .busCall⟩ }
  | k, .tx (.data bs) :: _, s => { s.record (.data bs) with seq := some ⟨i, k, .busCall⟩ }
  | k, .wait :: _, s => { s with seq := some ⟨i, k, .powerupDelay⟩ }

/-- A command passes the step it waits at: the next ones are issued. -/
def advance (r : Running) (s : State) : State := issue r.cmd (r.pos + 1) ((items s r.cmd).drop (r.pos + 1)) s

/-- A reply reaches the block: OK or ERR answers the outstanding call (R232), the delay's end lifts the wait (R114);
a reply to nothing that is waited for has no effect (DESIGN CHOICE, log 6). -/
def deliver (r : Reply) (s : State) : State :=
  match s.seq with
  | none => s
  | some run =>
    match run.pending, r with
    | .busCall, .ok => advance run s
    | .busCall, .err => fail run.cmd s
    | .busCall, .elapsed => s
    | .powerupDelay, .elapsed => advance run s
    | .powerupDelay, .ok => s
    | .powerupDelay, .err => s

/-- Takes the replies that come before anything else happens, while the command runs: a call blocks until the Bus
Transport answers (R8, R190), and a step of the model ends when the block is idle again or must wait (DESIGN CHOICE,
log 3). -/
def serve : List Event → State → State
  | [], s => { s with env := [] }
  | .reply r :: es, s => if s.busy then serve es (deliver r s) else { s with env := .reply r :: es }
  | .write a n d :: es, s => { s with env := .write a n d :: es }
  | .read a n :: es, s => { s with env := .read a n :: es }
  | .reset c d :: es, s => { s with env := .reset c d :: es }

/-- Runs a command that has passed its checks (R190): issues its first steps and serves the replies at hand. -/
def launch (i : Instr) (s : State) : State := serve s.env (issue i 0 (items s i) s)

/-- A command is accepted only when BUSY = 0; offered while BUSY = 1 it is held (R22, R190). -/
def whenIdle (i : Instr) (s : State) (run : State → State) : State :=
  if s.busy then s.hold (encode i) else run s

/-- The closed-session gate (R191) of every command but NOP, after `whenIdle`. -/
def whenOpen (i : Instr) (s : State) (run : State → State) : State :=
  whenIdle i s (fun s => if s.isOpen then run s else s.raise .invalidState .ok)

/-- The gates of a driver command (R111, R191), in the order of R223. -/
def whenDriven (i : Instr) (s : State) (run : State → State) : State :=
  whenOpen i s (fun s => if driverGate i s then run s else s.raise .invalidState .ok)

end Sys2Proof.Machine
end

