-- ==== Sys2Proof/Machine/DriverCommands.lean ====
section
/-! DEFINITION. The meanings of the driver commands SET_WINDOW, SET_POWER, SET_CONTRAST and SET_INVERTED
(40_protocol_driver.md). -/

namespace Sys2Proof.Machine

/-- SET_WINDOW (R121): the gate, the bounds of R120, one CMDSEQ; WINDOW is written when it answered OK. -/
def execSetWindow (c0 c1 : BitVec 8) (p0 p1 : BitVec 5) (s : State) : Host.Outcome State Fault Refusal :=
  .next (whenDriven (.setWindow c0 c1 p0 p1) s (fun s =>
    if inWindow s.cfg ⟨c0, c1, p0, p1⟩ then launch (.setWindow c0 c1 p0 p1) s
    else s.raise .outOfRange .ok))

/-- SET_POWER (R122): in UNINITIALIZED, FLAG = 1 completes OK with no transaction (C2). -/
def execSetPower (flag : Bool) (s : State) : Host.Outcome State Fault Refusal :=
  .next (whenDriven (.setPower flag) s (fun s =>
    if flag && decide (s.ctrlState = .uninitialized) then s.complete .ok .ok
    else launch (.setPower flag) s))

/-- SET_CONTRAST (R124). -/
def execSetContrast (val : Byte) (s : State) : Host.Outcome State Fault Refusal :=
  .next (whenDriven (.setContrast val) s (launch (.setContrast val)))

/-- SET_INVERTED (R125). -/
def execSetInverted (flag : Bool) (s : State) : Host.Outcome State Fault Refusal :=
  .next (whenDriven (.setInverted flag) s (launch (.setInverted flag)))

end Sys2Proof.Machine
end

