-- ==== Sys2Proof/Machine/FramebufferCommands.lean ====
section
/-! DEFINITION. The meanings of the pixel commands SET_PIXEL, GET_PIXEL and CLEAR (41_framebuffer.md): not gated by
controller state, no transaction, complete in the step that accepts them. -/

namespace Sys2Proof.Machine

/-- SET_PIXEL (R142). -/
def execSetPixel (x y : Int) (v : PixelValue) (s : State) : Host.Outcome State Fault Refusal :=
  .next (whenOpen (.setPixel x y v) s (fun s => (s.writePixel x y v).complete .ok .ok))

/-- GET_PIXEL (R143). -/
def execGetPixel (x y : Int) (s : State) : Host.Outcome State Fault Refusal :=
  .next (whenOpen (.getPixel x y) s (fun s => { s with pixel := s.readPixel x y }.complete .ok .ok))

/-- CLEAR (R144). -/
def execClear (s : State) : Host.Outcome State Fault Refusal :=
  .next (whenOpen .clear s (fun s => s.clearFb.complete .ok .ok))

end Sys2Proof.Machine
end

