-- ==== Sys2Proof/Machine/SessionCommands.lean ====
section
/-! DEFINITION. The meanings of the session commands NOP, BEGIN, FLUSH and CLOSE (43_session.md). -/

namespace Sys2Proof.Machine

/-- NOP (R192): OK also after CLOSE. -/
def execNop (s : State) : Host.Outcome State Fault Refusal :=
  .next (whenIdle .nop s (fun s => s.complete .ok .ok))

/-- BEGIN (R193): not gated by controller state. -/
def execBegin (mode : Mode) (contrast : Byte) (vccExt : Bool) (s : State) : Host.Outcome State Fault Refusal :=
  .next (whenOpen (.begin mode contrast vccExt) s (launch (.begin mode contrast vccExt)))

/-- FLUSH (R197). -/
def execFlush (s : State) : Host.Outcome State Fault Refusal :=
  .next (whenDriven .flush s (launch .flush))

/-- CLOSE (R200): always OK; the cause reports the power-off. -/
def execClose (s : State) : Host.Outcome State Fault Refusal :=
  .next (whenOpen .close s (fun s =>
    match s.ctrlState with
    | .active => launch .close s
    | .sleeping => launch .close s
    | .uninitialized => closeUnpowered .invalidState s
    | .poweredOff => closeUnpowered .invalidState s))

end Sys2Proof.Machine
end

