-- ==== Sys2Proof/Machine/Dispatch.lean ====
section
/-! DEFINITION. What each instruction does: one arm per constructor. -/

namespace Sys2Proof.Machine

def exec (i : Instr) (s : State) : Host.Outcome State Fault Refusal :=
  match i with
  | .nop => Sys2Proof.Machine.execNop s
  | .begin mode contrast vccExt => Sys2Proof.Machine.execBegin mode contrast vccExt s
  | .setWindow c0 c1 p0 p1 => Sys2Proof.Machine.execSetWindow c0 c1 p0 p1 s
  | .setPower flag => Sys2Proof.Machine.execSetPower flag s
  | .setContrast val => Sys2Proof.Machine.execSetContrast val s
  | .setInverted flag => Sys2Proof.Machine.execSetInverted flag s
  | .setPixel x y v => Sys2Proof.Machine.execSetPixel x y v s
  | .getPixel x y => Sys2Proof.Machine.execGetPixel x y s
  | .clear => Sys2Proof.Machine.execClear s
  | .flush => Sys2Proof.Machine.execFlush s
  | .close => Sys2Proof.Machine.execClose s

end Sys2Proof.Machine
end

