-- ==== Sys2Proof/Machine/HostPort.lean ====
section
/-! DEFINITION. The register window seen from the host (R21, R22, R63, R68), the acceptance of a command word
(R190), and a reset by the platform (R250, R251). -/

namespace Sys2Proof.Machine

/-- The block takes a command word (R190): an illegal word completes with ILLEGAL_COMMAND (R88), before every other
check (R223); a legal one is run. Called when BUSY = 0. -/
def accept (w : Word) (s : State) : Host.Outcome State Fault Refusal :=
  match decode w with
  | .legal i => exec i s
  | .illegal _ => .next (s.complete .illegalCommand .ok)

/-- A host access that reaches the block: 32 bits wide, aligned, inside the window; else the reason it stops
(R63, R66; which reason comes first is a DESIGN CHOICE, log 10). Alignment is judged by the
offset alone, whatever BASE is (DESIGN CHOICE, log 18). -/
def access (s : State) (addr width : Nat) (use : Nat → Host.Outcome State Fault Refusal) :
    Host.Outcome State Fault Refusal :=
  match windowOffset s.cfg addr with
  | none => .fault .outsideWindow
  | some off =>
    if width ≠ 4 then .refused .accessWidth
    else if off % 4 ≠ 0 then .refused .accessUnaligned
    else use off

/-- A host write: to CMD it offers a command, held while BUSY = 1 (R22); to any other register it is ignored
(R21, R68). -/
def hostWrite (addr width : Nat) (data : Word) (s : State) : Host.Outcome State Fault Refusal :=
  access s addr width (fun off =>
    match off with
    | 0 => if s.busy then .next (s.hold data) else accept data s
    | _ + 1 => .next s)

/-- A host read: it returns the register's word and has no other effect (R68). -/
def hostRead (addr width : Nat) (s : State) : Host.Outcome State Fault Refusal :=
  access s addr width (fun off => .next { s with readData := s.readRegister off })

/-- A reset by the platform (R250, R251): every piece of the block's state to its reset value, the running command
abandoned. What the other agents hold stays: the events to come, the host's CMD writes not yet accepted (DESIGN CHOICE,
log 4), the word the host last read (log 5). Parameters outside R5 are refused (DESIGN CHOICE, log 11). -/
def platformReset (c : Config) (draw : List Byte) (s : State) : Host.Outcome State Fault Refusal :=
  if c.wf && decide (draw.length = c.fbBytes) then
    .next { State.resetTo c draw with env := s.env, port := s.port, readData := s.readData }
  else .refused .resetParameters

/-- One event. -/
def handle (e : Event) (s : State) : Host.Outcome State Fault Refusal :=
  match e with
  | .write addr width data => hostWrite addr width data s
  | .read addr width => hostRead addr width s
  | .reply r => .next (deliver r s)
  | .reset c draw => platformReset c draw s

/-- The next event, or nothing: with no event the block waits (R233, R250; DESIGN CHOICE, log 3). -/
def nextEvent (s : State) : Host.Outcome State Fault Refusal :=
  match s.env with
  | [] => .next s
  | e :: es => handle e { s with env := es }

/-- A held CMD write is accepted as soon as BUSY is 0 (R22; DEDUCED, log 4); otherwise the next event happens. -/
def runStep (s : State) : Host.Outcome State Fault Refusal :=
  match s.port with
  | [] => nextEvent s
  | w :: ws => if s.busy then nextEvent s else accept w { s with port := ws }

/-- The word stands at CMD, the block idle: the next step accepts it. -/
def State.offer (s : State) (w : Word) : State := { s with seq := none, port := w :: s.port }

end Sys2Proof.Machine
end

