-- ==== Sys2Proof/Machine/Step.lean ====
section
/-! DEFINITION. One step of the machine, and where it takes its next instruction from. -/

namespace Sys2Proof.Machine

/-- One step: a held command is accepted, or the next event happens. -/
def step (s : State) : Host.Outcome State Fault Refusal := runStep s

/-- The state with a command word placed where the next step takes its instruction: first at the CMD port, the
sequencer idle (DESIGN CHOICE, log 3). -/
def State.withFetchWord (s : State) (nbits w : Nat) : State := s.offer (BitVec.ofNat 32 (w % 2 ^ nbits))

end Sys2Proof.Machine
end

