-- ==== Sys2Proof/Machine/Assembler.lean ====
section
/-! DEFINITION. The assembler syntax of R94 and the one-word pseudo-instructions of R95, as statements with integer
operands; what an assembler refuses; and the CMD writes by which a host sends commands (R22). Host-side: the block
sees only the words. -/

namespace Sys2Proof.Machine

/-- A statement of the assembler (R94, R95). -/
inductive Asm
  | nop
  /-- The last operand is `some true` for EXT, `some false` for INT, `none` when left out. -/
  | begin (mode : Mode) (contrast : Int) (ext : Option Bool)
  | setWindow (c0 c1 p0 p1 : Int)
  | setPower (on : Bool)
  | setContrast (v : Int)
  | setInverted (on : Bool)
  | setPixel (x y v : Int)
  | getPixel (x y : Int)
  | clear
  | flush
  | close
  | powerOn
  | powerOff
  | invertOn
  | invertOff
deriving DecidableEq, Repr

/-- An unsigned field of `n` bits, or nothing when the operand is out of it. -/
def unsignedField (n : Nat) (v : Int) : Option (BitVec n) :=
  if 0 ≤ v ∧ v < 2 ^ n then some (BitVec.ofInt n v) else none

/-- A pixel-value operand: 0, 1 or 2; 3 is reserved (R9, R94). -/
def pixelOperand (v : Int) : Option PixelValue := (unsignedField 2 v).bind PixelValue.ofBits

/-- The instruction of a statement (R94, R95); `none` where the assembler refuses. INT is the default of BEGIN. -/
def assemble : Asm → Option Instr
  | .nop => some .nop
  | .begin mode contrast ext => (unsignedField 8 contrast).map (fun c => .begin mode c (ext.getD false))
  | .setWindow c0 c1 p0 p1 =>
    match unsignedField 8 c0, unsignedField 8 c1, unsignedField 5 p0, unsignedField 5 p1 with
    | some a, some b, some p, some q => some (.setWindow a b p q)
    | _, _, _, _ => none
  | .setPower on => some (.setPower on)
  | .setContrast v => (unsignedField 8 v).map .setContrast
  | .setInverted on => some (.setInverted on)
  | .setPixel x y v => if coordFits x && coordFits y then (pixelOperand v).map (.setPixel x y) else none
  | .getPixel x y => if coordFits x && coordFits y then some (.getPixel x y) else none
  | .clear => some .clear
  | .flush => some .flush
  | .close => some .close
  | .powerOn => some (.setPower true)
  | .powerOff => some (.setPower false)
  | .invertOn => some (.setInverted true)
  | .invertOff => some (.setInverted false)

/-- The host sends commands: one aligned 32-bit write to CMD each, in order (R22, R63). -/
def cmdWrites (c : Config) (is : List Instr) : List Event := is.map (fun i => .write c.base 4 (encode i))

end Sys2Proof.Machine
end

