-- ==== Sys2Proof/Machine/Macros.lean ====
section
/-! DEFINITION. The rendering macros of 42_rendering_macros.md (R160 to R174): host-side pseudo-instructions, each a
finite set of integer coordinates with a pixel value, expanded into SET_PIXEL commands. They are functions; the block
sees only the words of the expansion. A set is a list of points whose order and repeats carry no meaning (DESIGN CHOICE, log 14). -/

namespace Sys2Proof.Machine

/-- A coordinate (column, row). -/
abbrev Point := Int × Int

/-- The integers lo, lo + 1, ..., hi - 1. -/
def halfOpen (lo hi : Int) : List Int := (List.range (hi - lo).toNat).map (fun k => lo + (k : Int))

/-- FILL_RECT (R162): [x, x+w) × [y, y+h). -/
def fillRectSet (x y w h : Int) : List Point :=
  (halfOpen y (y + h)).flatMap (fun j => (halfOpen x (x + w)).map (fun i => (i, j)))

/-- DRAW_RECT (R163): the border of the FILL_RECT set. -/
def drawRectSet (x y w h : Int) : List Point :=
  (fillRectSet x y w h).filter (fun p =>
    decide (p.1 = x) || decide (p.1 = x + w - 1) || decide (p.2 = y) || decide (p.2 = y + h - 1))

/-- |a|. -/
def absInt (a : Int) : Int := (a.natAbs : Int)

/-- The loop of LineSet (R164): the first argument counts the columns left. -/
def lineLoop (steep : Bool) (dx dy ystep : Int) : Nat → Int → Int → Int → List Point
  | 0, _, _, _ => []
  | n + 1, x, y, err =>
    (if steep then (y, x) else (x, y)) ::
      (if err - dy < 0 then lineLoop steep dx dy ystep n (x + 1) (y + ystep) (err - dy + dx)
       else lineLoop steep dx dy ystep n (x + 1) y (err - dy))

/-- LineSet from (x0, y0) to (x1, y1) with x0 ≤ x1, axes swapped back when `steep` (R164). -/
def lineFrom (steep : Bool) (x0 y0 x1 y1 : Int) : List Point :=
  lineLoop steep (x1 - x0) (absInt (y1 - y0)) (if y0 < y1 then 1 else -1) ((x1 - x0).toNat + 1) x0 y0 ((x1 - x0) / 2)

/-- LineSet after the steep test (R164): the endpoints in rising order of the driving axis. -/
def lineOrdered (steep : Bool) (x0 y0 x1 y1 : Int) : List Point :=
  if x0 > x1 then lineFrom steep x1 y1 x0 y0 else lineFrom steep x0 y0 x1 y1

/-- LineSet (R164), DRAW_LINE: Bresenham with its endpoints in canonical order. -/
def lineSet (x0 y0 x1 y1 : Int) : List Point :=
  if absInt (y1 - y0) > absInt (x1 - x0) then lineOrdered true y0 x0 y1 x1 else lineOrdered false x0 y0 x1 y1

/-- The eight points of one octant step (R166). -/
def octants (x y : Int) : List Point :=
  [(x, y), (x, -y), (-x, y), (-x, -y), (y, x), (y, -x), (-y, x), (-y, -x)]

/-- The loop of O(r) (R166); the first argument bounds the turns, which are at most r. -/
def circleLoop : Nat → Int → Int → Int → Int → Int → List Point
  | 0, _, _, _, _, _ => []
  | n + 1, f, ddx, ddy, x, y =>
    if x < y then
      if 0 ≤ f then
        octants (x + 1) (y - 1) ++ circleLoop n (f + (ddy + 2) + (ddx + 2)) (ddx + 2) (ddy + 2) (x + 1) (y - 1)
      else octants (x + 1) y ++ circleLoop n (f + (ddx + 2)) (ddx + 2) ddy (x + 1) y
    else []

/-- The offset set O(r) (R166): empty for r < 0. -/
def circleOffsets (r : Int) : List Point :=
  if r < 0 then []
  else [(0, r), (0, -r), (r, 0), (-r, 0)] ++ circleLoop r.toNat (1 - r) 1 (-2 * r) 0 r

/-- The offsets moved to a centre. -/
def translate (cx cy : Int) (o : List Point) : List Point := o.map (fun p => (cx + p.1, cy + p.2))

/-- DRAW_CIRCLE (R166). -/
def drawCircleSet (cx cy r : Int) : List Point := translate cx cy (circleOffsets r)

/-- The columns of row `j`. -/
def rowOf (t : List Point) (j : Int) : List Int := (t.filter (fun p => decide (p.2 = j))).map (fun p => p.1)

/-- The span of row `j`: from its leftmost to its rightmost column. -/
def rowSpan (t : List Point) (j : Int) : List Point :=
  match (rowOf t j).min?, (rowOf t j).max? with
  | some lo, some hi => (halfOpen lo (hi + 1)).map (fun i => (i, j))
  | _, _ => []

/-- Spans(T) (R167): the row spans of a set. -/
def spans (t : List Point) : List Point := (t.map (fun p => p.2)).dedup.flatMap (rowSpan t)

/-- FILL_CIRCLE (R167). -/
def fillCircleSet (cx cy r : Int) : List Point := spans (drawCircleSet cx cy r)

/-- The corner radius of DRAW_ROUND_RECT, clamped (R169). -/
def cornerRadius (w h radius : Int) : Int := max 0 (min radius (min w h / 2))

/-- DRAW_ROUND_RECT (R169) for w, h > 0, with the clamped radius: four edges and four quarter outlines. -/
def roundRectParts (x y w h r : Int) : List Point :=
  (halfOpen (x + r) (x + w - r)).map (fun i => (i, y)) ++
  (halfOpen (x + r) (x + w - r)).map (fun i => (i, y + h - 1)) ++
  (halfOpen (y + r) (y + h - r)).map (fun j => (x, j)) ++
  (halfOpen (y + r) (y + h - r)).map (fun j => (x + w - 1, j)) ++
  translate (x + r) (y + r) ((circleOffsets r).filter (fun o => decide (o.1 ≤ 0) && decide (o.2 ≤ 0))) ++
  translate (x + w - r - 1) (y + r) ((circleOffsets r).filter (fun o => decide (0 ≤ o.1) && decide (o.2 ≤ 0))) ++
  translate (x + w - r - 1) (y + h - r - 1)
    ((circleOffsets r).filter (fun o => decide (0 ≤ o.1) && decide (0 ≤ o.2))) ++
  translate (x + r) (y + h - r - 1) ((circleOffsets r).filter (fun o => decide (o.1 ≤ 0) && decide (0 ≤ o.2)))

/-- DRAW_ROUND_RECT (R169): empty when w ≤ 0 or h ≤ 0. -/
def roundRectSet (x y w h radius : Int) : List Point :=
  if w ≤ 0 ∨ h ≤ 0 then [] else roundRectParts x y w h (cornerRadius w h radius)

/-- DRAW_TRIANGLE (R170): the union of its three edges. -/
def drawTriangleSet (x0 y0 x1 y1 x2 y2 : Int) : List Point :=
  lineSet x0 y0 x1 y1 ++ lineSet x1 y1 x2 y2 ++ lineSet x2 y2 x0 y0

/-- FILL_TRIANGLE (R171). -/
def fillTriangleSet (x0 y0 x1 y1 x2 y2 : Int) : List Point := spans (drawTriangleSet x0 y0 x1 y1 x2 y2)

/-- A glyph of `cols` columns by `rows` rows (R172); bit [j][i] is row j, column i. -/
structure Glyph where
  cols : Nat
  rows : Nat
  bits : List (List Bool)
deriving DecidableEq, Repr

/-- G[j][i] (R172). -/
def Glyph.bit (g : Glyph) (i j : Nat) : Bool := (g.bits.getD j []).getD i false

/-- The value a glyph bit draws: `fg`, or `bg` where that is not TRANSPARENT (`none`) (R172). -/
def glyphValue (fg : PixelValue) (bg : Option PixelValue) (b : Bool) : Option PixelValue := if b then some fg else bg

/-- The block B(i, j) of a glyph cell (R172) with its value, or nothing. -/
def glyphCell (x y s : Int) (fg : PixelValue) (bg : Option PixelValue) (g : Glyph) (i j : Nat) :
    List (Point × PixelValue) :=
  match glyphValue fg bg (g.bit i j) with
  | some v => (fillRectSet (x + i * s) (y + j * s) s s).map (fun p => (p, v))
  | none => []

/-- BLIT_GLYPH (R172). -/
def blitGlyphSet (x y : Int) (g : Glyph) (s : Int) (fg : PixelValue) (bg : Option PixelValue) :
    List (Point × PixelValue) :=
  (List.range g.rows).flatMap (fun j => (List.range g.cols).flatMap (fun i => glyphCell x y s fg bg g i j))

/-- Bit (i, j) of a bitmap of `bw` columns (R173): rows of ceil(bw/8) bytes, most significant bit first. -/
def bitmapBit (bm : List Byte) (bw : Nat) (i j : Nat) : Bool :=
  (bm.getD (j * ((bw + 7) / 8) + i / 8) 0).getLsbD (7 - i % 8)

/-- BLIT_BITMAP (R173): the 1-bits. -/
def blitBitmapSet (x y : Int) (bm : List Byte) (bw bh : Int) : List Point :=
  (List.range bh.toNat).flatMap (fun j =>
    ((List.range bw.toNat).filter (fun i => bitmapBit bm bw.toNat i j)).map (fun i => (x + (i : Int), y + (j : Int))))

/-- The eleven rendering macros (R95, R161 to R173). -/
inductive Macro
  | drawPoint (x y : Int) (v : PixelValue)
  | fillRect (x y w h : Int) (v : PixelValue)
  | drawRect (x y w h : Int) (v : PixelValue)
  | drawLine (x0 y0 x1 y1 : Int) (v : PixelValue)
  | drawCircle (cx cy r : Int) (v : PixelValue)
  | fillCircle (cx cy r : Int) (v : PixelValue)
  | drawRoundRect (x y w h radius : Int) (v : PixelValue)
  | drawTriangle (x0 y0 x1 y1 x2 y2 : Int) (v : PixelValue)
  | fillTriangle (x0 y0 x1 y1 x2 y2 : Int) (v : PixelValue)
  | blitGlyph (x y : Int) (g : Glyph) (s : Int) (fg : PixelValue) (bg : Option PixelValue)
  | blitBitmap (x y : Int) (bm : List Byte) (bw bh : Int) (v : PixelValue)
deriving DecidableEq, Repr

/-- All points with one value. -/
def paint (v : PixelValue) (t : List Point) : List (Point × PixelValue) := t.map (fun p => (p, v))

/-- S(M) with the value of each element (R160). -/
def Macro.points : Macro → List (Point × PixelValue)
  | .drawPoint x y v => paint v [(x, y)]
  | .fillRect x y w h v => paint v (fillRectSet x y w h)
  | .drawRect x y w h v => paint v (drawRectSet x y w h)
  | .drawLine x0 y0 x1 y1 v => paint v (lineSet x0 y0 x1 y1)
  | .drawCircle cx cy r v => paint v (drawCircleSet cx cy r)
  | .fillCircle cx cy r v => paint v (fillCircleSet cx cy r)
  | .drawRoundRect x y w h radius v => paint v (roundRectSet x y w h radius)
  | .drawTriangle x0 y0 x1 y1 x2 y2 v => paint v (drawTriangleSet x0 y0 x1 y1 x2 y2)
  | .fillTriangle x0 y0 x1 y1 x2 y2 v => paint v (fillTriangleSet x0 y0 x1 y1 x2 y2)
  | .blitGlyph x y g s fg bg => blitGlyphSet x y g s fg bg
  | .blitBitmap x y bm bw bh v => paint v (blitBitmapSet x y bm bw bh)

/-- The value a set of points gives a coordinate. -/
def valueAt (t : List (Point × PixelValue)) (x y : Int) : Option PixelValue :=
  (t.find? (fun e => decide (e.1 = (x, y)))).map (fun e => e.2)

/-- The SET_PIXEL of column `x` and row `y`, if the set holds that point. -/
def pixelCommand (t : List (Point × PixelValue)) (y x : Nat) : Option Instr :=
  (valueAt t x y).map (.setPixel x y)

/-- The canonical expansion (R160): one SET_PIXEL for each in-bounds element, by y, then by x. -/
def expandPoints (c : Config) (t : List (Point × PixelValue)) : List Instr :=
  (List.range c.height).flatMap (fun y => (List.range c.width).filterMap (pixelCommand t y))

/-- The expansion of a macro (R95, R160). -/
def Macro.expand (c : Config) (m : Macro) : List Instr := expandPoints c m.points

/-- The Geometric Primitive Descriptor (R174): its ten tags. -/
inductive Primitive
  | point (x y : Int) (v : PixelValue)
  | line (x0 y0 x1 y1 : Int) (v : PixelValue)
  | rect (x y w h : Int) (v : PixelValue)
  | filledRect (x y w h : Int) (v : PixelValue)
  | circle (cx cy r : Int) (v : PixelValue)
  | filledCircle (cx cy r : Int) (v : PixelValue)
  | roundRect (x y w h radius : Int) (v : PixelValue)
  | triangle (x0 y0 x1 y1 x2 y2 : Int) (v : PixelValue)
  | glyph (x y : Int) (g : Glyph) (s : Int) (fg : PixelValue) (bg : Option PixelValue)
  | rawBitmap (x y : Int) (bm : List Byte) (bw bh : Int) (v : PixelValue)
deriving DecidableEq, Repr

/-- draw(primitive) (R174): the macro a tag dispatches to. FILL_TRIANGLE has no tag (C4). -/
def draw : Primitive → Macro
  | .point x y v => .drawPoint x y v
  | .line x0 y0 x1 y1 v => .drawLine x0 y0 x1 y1 v
  | .rect x y w h v => .drawRect x y w h v
  | .filledRect x y w h v => .fillRect x y w h v
  | .circle cx cy r v => .drawCircle cx cy r v
  | .filledCircle cx cy r v => .fillCircle cx cy r v
  | .roundRect x y w h radius v => .drawRoundRect x y w h radius v
  | .triangle x0 y0 x1 y1 x2 y2 v => .drawTriangle x0 y0 x1 y1 x2 y2 v
  | .glyph x y g s fg bg => .blitGlyph x y g s fg bg
  | .rawBitmap x y bm bw bh v => .blitBitmap x y bm bw bh v

end Sys2Proof.Machine
end

