-- ==== Sys2Proof/Safety.lean ====
section
/-! DEFINITION. What counts as a state the block can reach, in the terms claims use: the invariant of R41 with the
rules that bind the result fields (R220, R221), the sequencer (R35) and the trace (R69); which command a step runs;
and running a list of commands. -/

namespace Sys2Proof.Machine

/-- The panel is on as far as the gate is concerned: ACTIVE or SLEEPING (R111). -/
def State.isOn (s : State) : Bool := decide (s.ctrlState = .active) || decide (s.ctrlState = .sleeping)

/-- The block takes commands: idle, and the session open (R27, R190). -/
abbrev State.ready (s : State) : Prop := s.seq = none ∧ s.isOpen = true

/-- The driver commands (R111). -/
def isDriver : Instr → Bool
  | .setWindow _ _ _ _ => true
  | .setPower _ => true
  | .setContrast _ => true
  | .setInverted _ => true
  | .flush => true
  | .nop => false
  | .begin _ _ _ => false
  | .setPixel _ _ _ => false
  | .getPixel _ _ => false
  | .clear => false
  | .close => false

/-- The next event, if there is one, is no reply of the Bus Transport or of the delay. -/
def noReply : List Event → Bool
  | .reply _ :: _ => false
  | _ => true

/-- The word an event offers at CMD, if it is an aligned 32-bit write to that register (R22, R63). -/
def cmdWrite (c : Config) : Event → Option Word
  | .write addr width data => if addr = c.base ∧ width = 4 then some data else none
  | .read _ _ => none
  | .reply _ => none
  | .reset _ _ => none

/-- CODE and CAUSE are a pair R220 and R221 allow. -/
def resultOk (code cause : Code) : Bool :=
  match code, cause with
  | .ok, .ok => true
  | .ok, .invalidState => true
  | .ok, .protocolError => true
  | .protocolError, .transportError => true
  | .initializationError, .protocolError => true
  | .invalidState, .ok => true
  | .outOfRange, .ok => true
  | .illegalCommand, .ok => true
  | _, _ => false

/-- A transaction the trace may hold (R69): a DATA block has 1 to MAX_XFER bytes, a CMDSEQ at least one. -/
def xactOk (c : Config) : Xact → Bool
  | .cmd _ => true
  | .cmdSeq bs => decide (1 ≤ bs.length)
  | .data bs => decide (1 ≤ bs.length) && decide (bs.length ≤ c.maxXfer)
  | .reset => true

/-- A command that runs past its checks in this state: what its rule requires before its first transaction. -/
def launchable (s : State) : Instr → Bool
  | .begin _ _ _ => true
  | .setWindow c0 c1 p0 p1 => s.isOn && inWindow s.cfg ⟨c0, c1, p0, p1⟩
  | .setPower flag => s.isOn || (flag && decide (s.ctrlState = .poweredOff))
  | .setContrast _ => s.isOn
  | .setInverted _ => s.isOn
  | .flush => s.isOn
  | .close => s.isOn
  | .nop => false
  | .setPixel _ _ _ => false
  | .getPixel _ _ => false
  | .clear => false

/-- A step the sequencer may wait at, and what it then waits for: an answered transaction, or the power-up delay. -/
def waitsAt (l : List Item) (r : Running) : Bool :=
  match l[r.pos]?, r.pending with
  | some (.tx (.cmd _)), .busCall => true
  | some (.tx (.cmdSeq _)), .busCall => true
  | some (.tx (.data _)), .busCall => true
  | some .wait, .powerupDelay => true
  | _, _ => false

/-- The sequencer is idle, or runs a command the checks let through, at a step of its list (R35). -/
def State.seqOk (s : State) : Bool :=
  match s.seq with
  | none => true
  | some r => s.isOpen && launchable s r.cmd && waitsAt (items s r.cmd) r

/-- The invariant: R41, with the ranges of R5, the canonical form of the framebuffer, and the rules above. -/
def State.inv (s : State) : Bool :=
  s.cfg.wf && decide (s.fbReset.length = s.cfg.fbBytes) && Memory.wf s.fbReset s.cfg.fbBytes s.fb &&
    inWindow s.cfg s.window && resultOk s.code s.cause && s.trace.all (xactOk s.cfg) && s.seqOk

/-- The instruction of a word, if it is legal. -/
def legalOf (w : Word) : Option Instr :=
  match decode w with
  | .legal i => some i
  | .illegal _ => none

/-- The word the block accepts in this step, if it accepts one: a held CMD write, or a fresh one. -/
def State.accepts (s : State) : Option Word :=
  match s.seq, s.port, s.env with
  | some _, _, _ => none
  | none, w :: _, _ => some w
  | none, [], .write addr width data :: _ =>
    if windowOffset s.cfg addr = some 0 ∧ width = 4 then some data else none
  | none, [], _ => none

/-- The command a step works on: the one in progress, or the one the step accepts. -/
def State.current (s : State) : Option Instr :=
  match s.seq with
  | some r => some r.cmd
  | none => s.accepts.bind legalOf

/-- The event this step handles, if it handles one: none while a held CMD write is accepted. -/
def State.event (s : State) : Option Event :=
  match s.seq, s.port with
  | none, _ :: _ => none
  | _, _ => s.env.head?

/-- This step is a reset by the platform. -/
def State.resets (s : State) : Bool :=
  match s.event with
  | some (.reset _ _) => true
  | _ => false

/-- `k` steps; the first that does not answer a next state ends them. -/
def runSteps : Nat → State → Host.Outcome State Fault Refusal
  | 0, s => .next s
  | k + 1, s =>
    match step s with
    | .next t => runSteps k t
    | .fault r => .fault r
    | .refused r => .refused r

/-- Commands run one after the other, each to its end in the step that accepts it; `none` where one stops. -/
def runCommands : List Instr → State → Option State
  | [], s => some s
  | i :: is, s =>
    match exec i s with
    | .next t => runCommands is t
    | .fault _ => none
    | .refused _ => none

/-- What a pixel write makes of a pixel (R140). -/
def applyValue (v : PixelValue) (b : Bool) : Bool :=
  match v with
  | .off => false
  | .on => true
  | .invert => !b

end Sys2Proof.Machine
end

