-- ==== Sys2Proof/Certificates/Slice0/Obligations.lean ====
section
/-! DEFINITION. The statements about the model, each a rule of the spec or what follows from several. -/

open Sys2Proof Sys2Proof.Machine

/-! ### Encoding -/

/-- R96: the worked encodings, and the illegal examples, read by the decoder. -/
def Obligations.WorkedEncodingsDecode : Prop :=
  (∀ p ∈ [((0x1000007F : Word), Instr.begin .horizontal 0x7F false),
      (0x100006CF, .begin .page 0xCF true),
      (0x20040821, .setWindow 1 2 1 1),
      (0x30000000, .setPower false),
      (0x40000080, .setContrast 0x80),
      (0x50000001, .setInverted true),
      (0x61001009, .setPixel 1 9 .on),
      (0x61FFF000, .setPixel (-1) 0 .on),
      (0x6200300F, .setPixel 3 15 .invert),
      (0x70001009, .getPixel 1 9),
      (0x80000000, .clear),
      (0x90000000, .flush),
      (0xA0000000, .close)],
    decode p.1 = .legal p.2 ∧ encode p.2 = p.1) ∧
  decode 0x63000000 = .illegal .reservedPixelValue ∧
  decode 0x10000300 = .illegal .reservedMode ∧
  decode 0x00000001 = .illegal .reservedBits ∧
  decode 0xB0000000 = .illegal .reservedOpcode ∧
  decode 0x71000000 = .illegal .getPixelValue

/-- R92, R93: every instruction whose operands fit their fields is read back from its word. -/
def Obligations.DecodeOfEncode : Prop :=
  ∀ i : Instr, i.wf = true → decode (encode i) = .legal i

/-- R93: a legal word is the word of the one instruction it decodes to, which is well formed. -/
def Obligations.EncodeOfDecode : Prop :=
  ∀ (w : Word) (i : Instr), decode w = .legal i → i.wf = true ∧ encode i = w

/-- R88: which words are illegal, and that an illegal word completes at once with ILLEGAL_COMMAND and cause 0,
whether the session is open or not, writing no other state and issuing nothing. -/
def Obligations.IllegalWordsCompleteWithIllegalCommand : Prop :=
  (∀ w : Word, (∃ why, decode w = .illegal why) ↔
    (opField w = 0x0 ∧ w.extractLsb' 0 28 ≠ 0) ∨
    (opField w = 0x1 ∧ (w.extractLsb' 11 17 ≠ 0 ∨ w.extractLsb' 8 2 = 3)) ∨
    (opField w = 0x2 ∧ w.extractLsb' 26 2 ≠ 0) ∨
    (opField w = 0x3 ∧ w.extractLsb' 1 27 ≠ 0) ∨
    (opField w = 0x4 ∧ w.extractLsb' 8 20 ≠ 0) ∨
    (opField w = 0x5 ∧ w.extractLsb' 1 27 ≠ 0) ∨
    (opField w = 0x6 ∧ (w.extractLsb' 26 2 ≠ 0 ∨ w.extractLsb' 24 2 = 3)) ∨
    (opField w = 0x7 ∧ (w.extractLsb' 26 2 ≠ 0 ∨ w.extractLsb' 24 2 ≠ 0)) ∨
    (opField w = 0x8 ∧ w.extractLsb' 0 28 ≠ 0) ∨
    (opField w = 0x9 ∧ w.extractLsb' 0 28 ≠ 0) ∨
    (opField w = 0xA ∧ w.extractLsb' 0 28 ≠ 0) ∨
    0xB ≤ (opField w).toNat) ∧
  (∀ (s : State) (w : Word) (es : List Event) (why : Illegal), decode w = .illegal why → s.seq = none →
    s.port = [] → s.env = .write s.cfg.base 4 w :: es →
    step s = .next { s with code := .illegalCommand, cause := .ok, env := es })

/-- R94: the word column of the assembler syntax, for every instruction. -/
def Obligations.SyntaxWordFormulas : Prop :=
  encode .nop = 0x00000000 ∧
  (∀ m c v, encode (.begin m c v) =
    0x10000000 ||| (BitVec.ofBool v).setWidth 32 <<< 10 ||| (m.toBits).setWidth 32 <<< 8 ||| c.setWidth 32) ∧
  (∀ c0 c1 p0 p1, encode (.setWindow c0 c1 p0 p1) =
    0x20000000 ||| c0.setWidth 32 <<< 18 ||| c1.setWidth 32 <<< 10 ||| p0.setWidth 32 <<< 5 ||| p1.setWidth 32) ∧
  (∀ f, encode (.setPower f) = 0x30000000 ||| (BitVec.ofBool f).setWidth 32) ∧
  (∀ v, encode (.setContrast v) = 0x40000000 ||| v.setWidth 32) ∧
  (∀ f, encode (.setInverted f) = 0x50000000 ||| (BitVec.ofBool f).setWidth 32) ∧
  (∀ x y v, encode (.setPixel x y v) =
    0x60000000 ||| (v.toBits).setWidth 32 <<< 24 ||| (BitVec.ofInt 32 x &&& 0xFFF) <<< 12 |||
      (BitVec.ofInt 32 y &&& 0xFFF)) ∧
  (∀ x y, encode (.getPixel x y) =
    0x70000000 ||| (BitVec.ofInt 32 x &&& 0xFFF) <<< 12 ||| (BitVec.ofInt 32 y &&& 0xFFF)) ∧
  encode .clear = 0x80000000 ∧ encode .flush = 0x90000000 ∧ encode .close = 0xA0000000

/-- R94, R95: an assembler refuses exactly an operand out of its field or a reserved value, whatever WIDTH and PAGES
are; every other statement, the pseudo-instructions among them, it accepts, as the instruction of that name with those
operands (INT where BEGIN's last operand is left out); and what it accepts is well formed. -/
def Obligations.AssemblerRefusals : Prop :=
  (assemble .nop = some .nop ∧ assemble .clear = some .clear ∧ assemble .flush = some .flush ∧
    assemble .close = some .close ∧ (∀ on, assemble (.setPower on) = some (.setPower on)) ∧
    (∀ on, assemble (.setInverted on) = some (.setInverted on)) ∧
    assemble .powerOn = some (.setPower true) ∧ assemble .powerOff = some (.setPower false) ∧
    assemble .invertOn = some (.setInverted true) ∧ assemble .invertOff = some (.setInverted false)) ∧
  (∀ m v e, assemble (.begin m v e) = none ↔ ¬ (0 ≤ v ∧ v ≤ 255)) ∧
  (∀ v, assemble (.setContrast v) = none ↔ ¬ (0 ≤ v ∧ v ≤ 255)) ∧
  (∀ c0 c1 p0 p1, assemble (.setWindow c0 c1 p0 p1) = none ↔
    ¬ ((0 ≤ c0 ∧ c0 ≤ 255) ∧ (0 ≤ c1 ∧ c1 ≤ 255) ∧ (0 ≤ p0 ∧ p0 ≤ 31) ∧ (0 ≤ p1 ∧ p1 ≤ 31))) ∧
  (∀ x y v, assemble (.setPixel x y v) = none ↔
    ¬ ((-2048 ≤ x ∧ x ≤ 2047) ∧ (-2048 ≤ y ∧ y ≤ 2047) ∧ (v = 0 ∨ v = 1 ∨ v = 2))) ∧
  (∀ x y, assemble (.getPixel x y) = none ↔ ¬ ((-2048 ≤ x ∧ x ≤ 2047) ∧ (-2048 ≤ y ∧ y ≤ 2047))) ∧
  (∀ m v e i, assemble (.begin m v e) = some i →
    ∃ c : BitVec 8, (c.toNat : Int) = v ∧ i = .begin m c (decide (e = some true))) ∧
  (∀ v i, assemble (.setContrast v) = some i → ∃ c : BitVec 8, (c.toNat : Int) = v ∧ i = .setContrast c) ∧
  (∀ c0 c1 p0 p1 i, assemble (.setWindow c0 c1 p0 p1) = some i → ∃ (a b : BitVec 8) (p q : BitVec 5),
    ((a.toNat : Int) = c0 ∧ (b.toNat : Int) = c1 ∧ (p.toNat : Int) = p0 ∧ (q.toNat : Int) = p1) ∧
      i = .setWindow a b p q) ∧
  (∀ x y v i, assemble (.setPixel x y v) = some i →
    i = .setPixel x y (if v = 0 then .off else if v = 1 then .on else .invert)) ∧
  (∀ x y i, assemble (.getPixel x y) = some i → i = .getPixel x y) ∧
  (∀ a i, assemble a = some i → i.wf = true)

/-! ### The command cycle -/

/-- R22, R190: the word that stands first at CMD when the block is idle, or a fresh CMD write when none is held, runs
as the instruction it decodes to; around it the step only takes the word from where it stood. -/
def Obligations.StepRunsTheDecodedInstruction : Prop :=
  (∀ (s : State) (w : Word) (ws : List Word) (i : Instr), s.seq = none → s.port = w :: ws → decode w = .legal i →
    step s = exec i { s with port := ws }) ∧
  (∀ (s : State) (w : Word) (es : List Event) (i : Instr), s.seq = none → s.port = [] →
    s.env = .write s.cfg.base 4 w :: es → decode w = .legal i → step s = exec i { s with env := es })

/-- R22: a CMD write offered while BUSY = 1 is held, behind those held before it; a step of a busy block adds the
CMD write it takes, if it takes one, and accepts or drops none; once BUSY is 0 the oldest is accepted. -/
def Obligations.HeldCommandsKeepTheirOrder : Prop :=
  (∀ (s : State) (w : Word) (es : List Event), s.busy = true → s.env = .write s.cfg.base 4 w :: es →
    step s = .next { s with port := s.port ++ [w], env := es }) ∧
  (∀ s t : State, s.busy = true → step s = .next t →
    t.port = s.port ++ (s.env.take 1).filterMap (cmdWrite s.cfg)) ∧
  (∀ (s : State) (w : Word) (ws : List Word), s.seq = none → s.port = w :: ws →
    step s = accept w { s with port := ws }) ∧
  (∀ (s : State) (i : Instr), s.busy = true → exec i s = .next { s with port := s.port ++ [encode i] })

/-- R233: when the Bus Transport never answers and nothing resets the block, it stays busy at the same call for good:
each step takes one event, the CMD writes among the events taken are held in their order, and nothing else of the
block changes. -/
def Obligations.UnansweredCallHangs : Prop :=
  ∀ (k : Nat) (s t : State), s.busy = true → (∀ e ∈ s.env, (∀ r, e ≠ .reply r) ∧ (∀ c d, e ≠ .reset c d)) →
    runSteps k s = .next t →
    t = { s with
      port := s.port ++ (s.env.take k).filterMap (cmdWrite s.cfg), env := s.env.drop k, readData := t.readData }

/-! ### Framebuffer commands -/

/-- R61: where a pixel lies; it lies in the framebuffer, and distinct pixels have distinct places. -/
def Obligations.PixelAddresses : Prop :=
  (∀ (c : Config) (x y : Int), inBounds c x y = true →
    pixByte c x y = y.toNat / 8 * c.width + x.toNat ∧ pixBit y = y.toNat % 8 ∧ pixByte c x y < c.fbBytes) ∧
  (∀ (c : Config) (x y x' y' : Int), inBounds c x y = true → inBounds c x' y' = true →
    pixByte c x y = pixByte c x' y' → pixBit y = pixBit y' → x = x' ∧ y = y') ∧
  (∀ (s : State) (x y : Int), inBounds s.cfg x y = true →
    s.readPixel x y = (s.memRead (y.toNat / 8 * s.cfg.width + x.toNat)).getLsbD (y.toNat % 8))

/-- R140, R142: SET_PIXEL completes OK in every controller state; in bounds exactly one bit changes, cleared, set or
flipped; out of bounds nothing does. -/
def Obligations.SetPixelWritesOneBit : Prop :=
  ∀ (s : State) (x y : Int) (v : PixelValue), s.ready → Memory.wf s.fbReset s.cfg.fbBytes s.fb = true →
    ∃ t, exec (.setPixel x y v) s = .next t ∧ t = { s with fb := t.fb, code := .ok, cause := .ok } ∧
      ∀ a n, (t.memRead a).getLsbD n =
        if (0 ≤ x ∧ x < s.cfg.width ∧ 0 ≤ y ∧ y < s.cfg.height) ∧
            a = y.toNat / 8 * s.cfg.width + x.toNat ∧ n = y.toNat % 8 then
          match v with
          | .off => false
          | .on => true
          | .invert => !(s.memRead a).getLsbD n
        else (s.memRead a).getLsbD n

/-- R141, R143: GET_PIXEL completes OK in every controller state, with the pixel's bit, or 0 outside. -/
def Obligations.GetPixelReadsTheBit : Prop :=
  ∀ (s : State) (x y : Int), s.ready →
    exec (.getPixel x y) s = .next { s with
      pixel := if 0 ≤ x ∧ x < s.cfg.width ∧ 0 ≤ y ∧ y < s.cfg.height then
          (s.memRead (y.toNat / 8 * s.cfg.width + x.toNat)).getLsbD (y.toNat % 8) else false
      code := .ok
      cause := .ok }

/-- R144: CLEAR completes OK in every controller state, and leaves every byte 0. -/
def Obligations.ClearZeroesTheFramebuffer : Prop :=
  ∀ s : State, s.ready → Memory.wf s.fbReset s.cfg.fbBytes s.fb = true →
    ∃ t, exec .clear s = .next t ∧ t = { s with fb := t.fb, code := .ok, cause := .ok } ∧
      ∀ a, t.memRead a = if a < s.cfg.fbBytes then 0 else s.memRead a

/-- R146: the round trips of a pixel. -/
def Obligations.PixelRoundTrips : Prop :=
  ∀ (s : State) (x y : Int), s.ready → Memory.wf s.fbReset s.cfg.fbBytes s.fb = true →
    inBounds s.cfg x y = true →
    (∃ t u, exec (.setPixel x y .on) s = .next t ∧ exec (.getPixel x y) t = .next u ∧ u.pixel = true) ∧
    (∃ t u, exec (.setPixel x y .off) s = .next t ∧ exec (.getPixel x y) t = .next u ∧ u.pixel = false) ∧
    (∃ t u, exec (.setPixel x y .invert) s = .next t ∧ exec (.setPixel x y .invert) t = .next u ∧
      ∀ a, u.memRead a = s.memRead a) ∧
    (∀ (v : PixelValue) (x' y' : Int), (x', y') ≠ (x, y) →
      ∃ t, exec (.setPixel x y v) s = .next t ∧ t.readPixel x' y' = s.readPixel x' y')

/-- R147: the transition from row 7 to row 8. -/
def Obligations.PageBoundaryRows : Prop :=
  (∀ (s : State) (x : Nat), x < s.cfg.width → 9 ≤ s.cfg.height →
    s.readPixel x 7 = (s.memRead x).getLsbD 7 ∧ s.readPixel x 8 = (s.memRead (s.cfg.width + x)).getLsbD 0) ∧
  (∀ s : State, s.ready → Memory.wf s.fbReset s.cfg.fbBytes s.fb = true → s.cfg.width = 4 → 9 ≤ s.cfg.height →
    (∀ a, s.memRead a = 0) →
    (∃ t, exec (.setPixel 2 7 .on) s = .next t ∧ ∀ a, t.memRead a = if a = 2 then 0x80 else 0) ∧
    (∃ t, exec (.setPixel 2 8 .on) s = .next t ∧ ∀ a, t.memRead a = if a = 6 then 0x01 else 0))

/-- R65: the padding bits of the last page hold the reset draw, no SET_PIXEL changes them, CLEAR writes them to 0. -/
def Obligations.PaddingBitsOnlyCleared : Prop :=
  (∀ (c : Config) (draw : List Byte) (a : Nat), a < draw.length →
    some ((State.resetTo c draw).memRead a) = draw[a]?) ∧
  ∀ (s : State) (c n : Nat), s.ready → Memory.wf s.fbReset s.cfg.fbBytes s.fb = true →
    c < s.cfg.width → 1 ≤ s.cfg.height → n < 8 → s.cfg.height ≤ 8 * (s.cfg.pages - 1) + n →
    (∀ (x y : Int) (v : PixelValue), ∃ t, exec (.setPixel x y v) s = .next t ∧
      (t.memRead ((s.cfg.pages - 1) * s.cfg.width + c)).getLsbD n =
        (s.memRead ((s.cfg.pages - 1) * s.cfg.width + c)).getLsbD n) ∧
    (∃ t, exec .clear s = .next t ∧
      (t.memRead ((s.cfg.pages - 1) * s.cfg.width + c)).getLsbD n = false)

/-- R145, R148: the serialisation is FB[0], FB[1], ... in index order, FB_BYTES of them. -/
def Obligations.AsPagesInIndexOrder : Prop :=
  ∀ s : State, s.asPages = (List.range s.cfg.fbBytes).map s.memRead ∧
    s.asPages.length = s.cfg.width * s.cfg.pages ∧
    s.asPages = (List.range s.cfg.pages).flatMap
      (fun p => (List.range s.cfg.width).map (fun c => s.memRead (p * s.cfg.width + c)))

/-- The frame of NOP, SET_PIXEL, GET_PIXEL and CLEAR, in every state: no transaction, no event taken, no register but
the result fields (and PIXEL for GET_PIXEL), and no byte but the one SET_PIXEL stores to (in bounds, when it is run:
the block idle and open) or those CLEAR stores to. -/
def Obligations.PixelCommandFrame : Prop :=
  ∀ (i : Instr) (s t : State), (i = .nop ∨ (∃ x y v, i = .setPixel x y v) ∨ (∃ x y, i = .getPixel x y) ∨ i = .clear) →
    Memory.wf s.fbReset s.cfg.fbBytes s.fb = true → exec i s = .next t →
    t = { s with fb := t.fb, code := t.code, cause := t.cause, pixel := t.pixel, port := t.port } ∧
    (s.seq = none → t.port = s.port) ∧
    ((∀ x y, i ≠ .getPixel x y) → t.pixel = s.pixel) ∧
    (∀ x y v, i = .setPixel x y v →
      ∀ a, (inBounds s.cfg x y = true → a ≠ pixByte s.cfg x y) → t.memRead a = s.memRead a) ∧
    (i = .clear → ∀ a, s.cfg.fbBytes ≤ a → t.memRead a = s.memRead a) ∧
    (i ≠ .clear → (∀ x y v, i ≠ .setPixel x y v) → ∀ a, t.memRead a = s.memRead a)

/-! ### Driver commands -/

/-- R113, R120, R121: SET_WINDOW when the gate passes: out of bounds nothing but OUT_OF_RANGE; in bounds one CMDSEQ
whose bytes follow the addressing mode, and WINDOW written if it answers OK, nothing if it answers
ERR; with no answer yet the call is outstanding and the block BUSY. -/
def Obligations.SetWindowFollowsItsRule : Prop :=
  ∀ (s : State) (c0 c1 : BitVec 8) (p0 p1 : BitVec 5), s.ready → s.isOn = true →
    (¬ (c0.toNat ≤ c1.toNat ∧ c1.toNat < s.cfg.width ∧ p0.toNat ≤ p1.toNat ∧ p1.toNat < s.cfg.pages) →
      exec (.setWindow c0 c1 p0 p1) s = .next { s with code := .outOfRange, cause := .ok }) ∧
    ((c0.toNat ≤ c1.toNat ∧ c1.toNat < s.cfg.width ∧ p0.toNat ≤ p1.toNat ∧ p1.toNat < s.cfg.pages) →
      ∀ (bs : List Byte) (es : List Event),
      bs = (match s.mode with
        | .horizontal => [s.cfg.cmdtab.columnAddr, c0, c1, s.cfg.cmdtab.pageAddr, p0.setWidth 8, p1.setWidth 8]
        | .vertical => [s.cfg.cmdtab.columnAddr, c0, c1, s.cfg.cmdtab.pageAddr, p0.setWidth 8, p1.setWidth 8]
        | .page => [s.cfg.cmdtab.pageStartBase ||| p0.setWidth 8, s.cfg.cmdtab.colLowBase ||| (c0 &&& 0x0F),
            s.cfg.cmdtab.colHighBase ||| (c0 >>> 4)]) →
      (s.env = .reply .ok :: es → exec (.setWindow c0 c1 p0 p1) s = .next { s with
        window := ⟨c0, c1, p0, p1⟩, code := .ok, cause := .ok, trace := s.trace ++ [.cmdSeq bs], env := es }) ∧
      (s.env = .reply .err :: es → exec (.setWindow c0 c1 p0 p1) s = .next { s with
        code := .protocolError, cause := .transportError, trace := s.trace ++ [.cmdSeq bs], env := es }) ∧
      (noReply s.env = true → exec (.setWindow c0 c1 p0 p1) s = .next { s with
        seq := some ⟨.setWindow c0 c1 p0 p1, 0, .busCall⟩, trace := s.trace ++ [.cmdSeq bs] }))

/-- R122: SET_POWER, every row of its table; with no answer yet the call is outstanding and the block BUSY. -/
def Obligations.SetPowerFollowsItsTable : Prop :=
  ∀ (s : State) (es : List Event), s.ready →
    (s.ctrlState = .uninitialized →
      exec (.setPower true) s = .next { s with code := .ok, cause := .ok } ∧
      exec (.setPower false) s = .next { s with code := .invalidState, cause := .ok }) ∧
    (s.ctrlState = .poweredOff → exec (.setPower false) s = .next { s with code := .invalidState, cause := .ok }) ∧
    (s.ctrlState ≠ .uninitialized → s.env = .reply .ok :: es →
      exec (.setPower true) s = .next { s with
        ctrlState := .active, code := .ok, cause := .ok,
        trace := s.trace ++ [.cmd s.cfg.cmdtab.displayOn], env := es }) ∧
    (s.ctrlState ≠ .uninitialized → s.env = .reply .err :: es →
      exec (.setPower true) s = .next { s with
        code := .protocolError, cause := .transportError,
        trace := s.trace ++ [.cmd s.cfg.cmdtab.displayOn], env := es }) ∧
    (s.ctrlState = .active ∨ s.ctrlState = .sleeping → s.env = .reply .ok :: es →
      exec (.setPower false) s = .next { s with
        ctrlState := .poweredOff, code := .ok, cause := .ok,
        trace := s.trace ++ [.cmd s.cfg.cmdtab.displayOff], env := es }) ∧
    (s.ctrlState = .active ∨ s.ctrlState = .sleeping → s.env = .reply .err :: es →
      exec (.setPower false) s = .next { s with
        code := .protocolError, cause := .transportError,
        trace := s.trace ++ [.cmd s.cfg.cmdtab.displayOff], env := es }) ∧
    (s.ctrlState ≠ .uninitialized → noReply s.env = true →
      exec (.setPower true) s = .next { s with
        seq := some ⟨.setPower true, 0, .busCall⟩, trace := s.trace ++ [.cmd s.cfg.cmdtab.displayOn] }) ∧
    (s.ctrlState = .active ∨ s.ctrlState = .sleeping → noReply s.env = true →
      exec (.setPower false) s = .next { s with
        seq := some ⟨.setPower false, 0, .busCall⟩, trace := s.trace ++ [.cmd s.cfg.cmdtab.displayOff] })

/-- R124: SET_CONTRAST; with no answer yet the call is outstanding and the block BUSY. -/
def Obligations.SetContrastFollowsItsRule : Prop :=
  ∀ (s : State) (val : Byte) (es : List Event), s.ready →
    (s.isOn = false → exec (.setContrast val) s = .next { s with code := .invalidState, cause := .ok }) ∧
    (s.isOn = true → s.env = .reply .ok :: es →
      exec (.setContrast val) s = .next { s with
        contrast := val, code := .ok, cause := .ok,
        trace := s.trace ++ [.cmdSeq [s.cfg.cmdtab.setContrast, val]], env := es }) ∧
    (s.isOn = true → s.env = .reply .err :: es →
      exec (.setContrast val) s = .next { s with
        code := .protocolError, cause := .transportError,
        trace := s.trace ++ [.cmdSeq [s.cfg.cmdtab.setContrast, val]], env := es }) ∧
    (s.isOn = true → noReply s.env = true →
      exec (.setContrast val) s = .next { s with
        seq := some ⟨.setContrast val, 0, .busCall⟩,
        trace := s.trace ++ [.cmdSeq [s.cfg.cmdtab.setContrast, val]] })

/-- R125: SET_INVERTED; with no answer yet the call is outstanding and the block BUSY. -/
def Obligations.SetInvertedFollowsItsRule : Prop :=
  ∀ (s : State) (flag : Bool) (b : Byte) (es : List Event), s.ready →
    b = (if flag then s.cfg.cmdtab.invertDisplay else s.cfg.cmdtab.normalDisplay) →
    (s.isOn = false → exec (.setInverted flag) s = .next { s with code := .invalidState, cause := .ok }) ∧
    (s.isOn = true → s.env = .reply .ok :: es →
      exec (.setInverted flag) s = .next { s with
        inverted := flag, code := .ok, cause := .ok,
        trace := s.trace ++ [.cmd b], env := es }) ∧
    (s.isOn = true → s.env = .reply .err :: es →
      exec (.setInverted flag) s = .next { s with
        code := .protocolError, cause := .transportError,
        trace := s.trace ++ [.cmd b], env := es }) ∧
    (s.isOn = true → noReply s.env = true →
      exec (.setInverted flag) s = .next { s with
        seq := some ⟨.setInverted flag, 0, .busCall⟩, trace := s.trace ++ [.cmd b] })

/-- R111: the gate. Every driver command but SET_POWER(1) completes with INVALID_STATE in UNINITIALIZED and
POWERED_OFF, nothing else written; in ACTIVE and SLEEPING, and for SET_POWER(1), the gate lets it by. -/
def Obligations.DriverGateByState : Prop :=
  ∀ (s : State) (i : Instr), isDriver i = true → s.ready →
    (s.ctrlState = .uninitialized ∨ s.ctrlState = .poweredOff → i ≠ .setPower true →
      exec i s = .next { s with code := .invalidState, cause := .ok }) ∧
    (s.ctrlState = .active ∨ s.ctrlState = .sleeping ∨ i = .setPower true →
      ∀ t, exec i s = .next t → t.seq = none → t.code ≠ .invalidState)

/-- The frame of SET_WINDOW, SET_POWER, SET_CONTRAST and SET_INVERTED, in every state and whatever the bus answers: no
byte of the framebuffer, no register but the result fields and the one field the command is about. -/
def Obligations.DriverCommandFrame : Prop :=
  ∀ (i : Instr) (s t : State), isDriver i = true → i ≠ .flush → exec i s = .next t →
    t.cfg = s.cfg ∧ t.fbReset = s.fbReset ∧ (∀ a, t.memRead a = s.memRead a) ∧ t.isOpen = s.isOpen ∧
    t.pixel = s.pixel ∧ t.mode = s.mode ∧ t.vccExt = s.vccExt ∧ t.readData = s.readData ∧
    (s.seq = none → t.port = s.port) ∧
    ((∀ c0 c1 p0 p1, i ≠ .setWindow c0 c1 p0 p1) → t.window = s.window) ∧
    ((∀ f, i ≠ .setPower f) → t.ctrlState = s.ctrlState) ∧
    ((∀ v, i ≠ .setContrast v) → t.contrast = s.contrast) ∧
    ((∀ f, i ≠ .setInverted f) → t.inverted = s.inverted)

/-- R112: ERR to an outstanding call of a driver command or FLUSH, at any step of its list, ends the command at once: no
further transaction, no completion write, PROTOCOL_ERROR caused by TRANSPORT_ERROR. R116: so does ERR to a call of
BEGIN, with UNINITIALIZED and INITIALIZATION_ERROR caused by PROTOCOL_ERROR. R200: ERR to CLOSE's call completes it OK,
closed, STATE as it was, its cause PROTOCOL_ERROR. -/
def Obligations.TransportErrorStopsTheCommand : Prop :=
  ∀ (s : State) (k : Nat) (es : List Event), s.env = .reply .err :: es →
    (∀ i, isDriver i = true → s.seq = some ⟨i, k, .busCall⟩ →
      step s = .next { s with code := .protocolError, cause := .transportError, seq := none, env := es }) ∧
    (∀ m c v, s.seq = some ⟨.begin m c v, k, .busCall⟩ →
      step s = .next { s with
        ctrlState := .uninitialized, code := .initializationError, cause := .protocolError, seq := none, env := es }) ∧
    (s.seq = some ⟨.close, k, .busCall⟩ →
      step s = .next { s with isOpen := false, code := .ok, cause := .protocolError, seq := none, env := es })

/-- R35, R71, R114, R232: what a step makes of an answer that comes while a command waits. OK to a call, or the delay's
end, issues the next transaction of the command's list, if there is one; after the last the command completes with the
writes of its rule. A reply to nothing that is waited for has no effect: the model's choice, log entry 6. And an answer
that comes late does what it would have done at hand, whatever CMD writes were held and reads made meanwhile. -/
def Obligations.LateAnswersMoveTheCommandOn : Prop :=
  (∀ (s : State) (es : List Event), s.env = .reply .ok :: es →
    (∀ (i : Instr) (k : Nat) (x : Xact), s.seq = some ⟨i, k, .busCall⟩ → (items s i)[k + 1]? = some (.tx x) →
      x ≠ .reset →
      step s = .next { s with seq := some ⟨i, k + 1, .busCall⟩, trace := s.trace ++ [x], env := es }) ∧
    (∀ c0 c1 p0 p1, s.seq = some ⟨.setWindow c0 c1 p0 p1, 0, .busCall⟩ →
      step s = .next { s with window := ⟨c0, c1, p0, p1⟩, code := .ok, cause := .ok, seq := none, env := es }) ∧
    (∀ f, s.seq = some ⟨.setPower f, 0, .busCall⟩ →
      step s = .next { s with
        ctrlState := (if f then .active else .poweredOff), code := .ok, cause := .ok, seq := none, env := es }) ∧
    (∀ v, s.seq = some ⟨.setContrast v, 0, .busCall⟩ →
      step s = .next { s with contrast := v, code := .ok, cause := .ok, seq := none, env := es }) ∧
    (∀ f, s.seq = some ⟨.setInverted f, 0, .busCall⟩ →
      step s = .next { s with inverted := f, code := .ok, cause := .ok, seq := none, env := es }) ∧
    (s.seq = some ⟨.close, 0, .busCall⟩ →
      step s = .next { s with
        ctrlState := .poweredOff, isOpen := false, code := .ok, cause := .ok, seq := none, env := es }) ∧
    (∀ m c v, s.seq = some ⟨.begin m c v, 8, .busCall⟩ →
      step s = .next { s with
        ctrlState := .active, contrast := c, mode := m, vccExt := v, inverted := false,
        window := ⟨0, BitVec.ofNat 8 (s.cfg.width - 1), 0, BitVec.ofNat 5 (s.cfg.pages - 1)⟩,
        code := .ok, cause := .ok, seq := none, env := es }) ∧
    (∀ k, s.seq = some ⟨.flush, k, .busCall⟩ → s.flushItems.length = k + 1 →
      step s = .next { s with
        window := ⟨0, BitVec.ofNat 8 (s.cfg.width - 1),
          if s.mode = .horizontal then 0 else BitVec.ofNat 5 (s.cfg.pages - 1), BitVec.ofNat 5 (s.cfg.pages - 1)⟩,
        code := .ok, cause := .ok, seq := none, env := es })) ∧
  (∀ (s : State) (es : List Event) (m : Mode) (c : Byte) (v : Bool), s.env = .reply .elapsed :: es →
    s.seq = some ⟨.begin m c v, 1, .powerupDelay⟩ →
    step s = .next { s with
      seq := some ⟨.begin m c v, 2, .busCall⟩, trace := s.trace ++ [.cmd s.cfg.cmdtab.displayOff], env := es }) ∧
  (∀ (s : State) (r : Reply) (es : List Event), s.env = .reply r :: es →
    (s.seq = none ∧ s.port = [] ∨ (∃ i k, s.seq = some ⟨i, k, .busCall⟩) ∧ r = .elapsed ∨
      (∃ i k, s.seq = some ⟨i, k, .powerupDelay⟩) ∧ r ≠ .elapsed) →
    step s = .next { s with env := es }) ∧
  (∀ (i : Instr) (s t : State) (rs : List Reply) (r : Reply) (es : List Event) (p : List Word) (d : Word),
    s.seq = none → noReply es = true → exec i { s with env := rs.map .reply ++ es } = .next t → t.busy = true →
    ∃ u, exec i { s with env := rs.map .reply ++ .reply r :: es } = .next u ∧
      step { t with port := p, readData := d, env := .reply r :: es } = .next { u with port := p, readData := d })

/-- R123: the only ways the controller state changes, over every step but a reset; no command enters SLEEPING. -/
def Obligations.ControllerStateChanges : Prop :=
  ∀ s t : State, s.inv = true → s.resets = false → step s = .next t → t.ctrlState ≠ s.ctrlState →
    (∃ m c v, s.current = some (.begin m c v) ∧
      (t.ctrlState = .active ∧ t.code = .ok ∨ t.ctrlState = .uninitialized ∧ t.code = .initializationError)) ∨
    (s.current = some (.setPower true) ∧ s.ctrlState ≠ .uninitialized ∧ t.ctrlState = .active) ∨
    (s.current = some (.setPower false) ∧ s.isOn = true ∧ t.ctrlState = .poweredOff) ∨
    (s.current = some .close ∧ s.isOn = true ∧ t.ctrlState = .poweredOff)

/-! ### Session commands -/

/-- R192: NOP completes OK in every idle state, also after CLOSE. -/
def Obligations.NopWritesTheResultOnly : Prop :=
  ∀ s : State, s.seq = none → exec .nop s = .next { s with code := .ok, cause := .ok }

/-- R114, R115, R116, R193: BEGIN, in every controller state: with the delay over and seven OKs it issues the eight
transactions in order and completes with the configuration recorded; with ERR at init step k + 1 it has issued RESET
and the steps so far and leaves only UNINITIALIZED and the result; with no reply it waits after RESET. -/
def Obligations.BeginFollowsItsRule : Prop :=
  ∀ (s : State) (m : Mode) (c : Byte) (v : Bool) (plan : List Xact), s.ready →
    plan = [.reset,
      .cmd s.cfg.cmdtab.displayOff,
      .cmdSeq [s.cfg.cmdtab.setClkdiv, s.cfg.clkdiv],
      .cmdSeq [s.cfg.cmdtab.setMultiplex, BitVec.ofNat 8 (s.cfg.height - 1)],
      .cmdSeq [s.cfg.cmdtab.setChargePump,
        if v then s.cfg.cmdtab.chargePumpExt else s.cfg.cmdtab.chargePumpInt],
      .cmdSeq [s.cfg.cmdtab.setAddrMode, s.cfg.cmdtab.modeArg m],
      .cmdSeq [s.cfg.cmdtab.setContrast, c],
      .cmd s.cfg.cmdtab.displayOn] →
    (∀ es, s.env = .reply .elapsed :: (List.replicate 7 (.reply .ok) ++ es) →
      exec (.begin m c v) s = .next { s with
        ctrlState := .active, contrast := c, mode := m, vccExt := v, inverted := false,
        window := ⟨0, BitVec.ofNat 8 (s.cfg.width - 1), 0, BitVec.ofNat 5 (s.cfg.pages - 1)⟩,
        code := .ok, cause := .ok, trace := s.trace ++ plan, env := es }) ∧
    (∀ k es, k < 7 → s.env = .reply .elapsed :: (List.replicate k (.reply .ok) ++ .reply .err :: es) →
      exec (.begin m c v) s = .next { s with
        ctrlState := .uninitialized, code := .initializationError, cause := .protocolError,
        trace := s.trace ++ plan.take (k + 2), env := es }) ∧
    (noReply s.env = true →
      exec (.begin m c v) s = .next { s with
        seq := some ⟨.begin m c v, 1, .powerupDelay⟩, trace := s.trace ++ [.reset] })

/-- R194: only BEGIN takes the controller from UNINITIALIZED to ACTIVE. -/
def Obligations.OnlyBeginLeavesUninitialized : Prop :=
  ∀ s t : State, s.inv = true → s.ctrlState = .uninitialized → step s = .next t →
    t.ctrlState = .uninitialized ∨
    (∃ m c v, s.current = some (.begin m c v) ∧ t.ctrlState = .active ∧ t.code = .ok)

/-- R117, R118: the blocks of PushPages: in order they are the bytes, each has 1 to MAX_XFER of them, there are
ceil(L / MAX_XFER), all but the last are full, and the last holds the rest. -/
def Obligations.PushPagesBlocks : Prop :=
  ∀ (k : Nat) (bs : List Byte), 1 ≤ k → 1 ≤ bs.length →
    (chunks k bs).flatten = bs ∧
    (chunks k bs).length = (bs.length + k - 1) / k ∧
    (∀ b ∈ chunks k bs, 1 ≤ b.length ∧ b.length ≤ k) ∧
    (∀ b ∈ (chunks k bs).dropLast, b.length = k) ∧
    (∀ b, (chunks k bs).getLast? = some b → b.length = bs.length - ((bs.length + k - 1) / k - 1) * k)

/-- R195: the number of transactions of a flush plan, and that its DATA blocks are the serialisation in order. -/
def Obligations.FlushPlanCountsAndData : Prop :=
  ∀ s : State, s.cfg.wf = true →
    s.flushItems.length =
      (if s.mode = .horizontal then 1 + (s.cfg.fbBytes + s.cfg.maxXfer - 1) / s.cfg.maxXfer
       else s.cfg.pages * (1 + (s.cfg.width + s.cfg.maxXfer - 1) / s.cfg.maxXfer)) ∧
    s.flushItems.flatMap (fun x => match x with
      | .tx (.data bs) => bs
      | _ => []) = s.asPages

/-- R195, R197: FLUSH when the gate passes: the plan of the addressing mode, transaction by transaction; OK to all of
them completes it with the final window; ERR to one ends it there with WINDOW and FB as they were; with no reply it
waits with that call outstanding. -/
def Obligations.FlushFollowsItsPlan : Prop :=
  ∀ (s : State) (plan : List Xact) (final : Window), s.ready → s.isOn = true → s.cfg.wf = true →
    plan = (match s.mode with
      | .horizontal =>
        .cmdSeq [s.cfg.cmdtab.columnAddr, 0, BitVec.ofNat 8 (s.cfg.width - 1),
          s.cfg.cmdtab.pageAddr, 0, BitVec.ofNat 8 (s.cfg.pages - 1)] ::
        (chunks s.cfg.maxXfer s.asPages).map .data
      | .vertical => (List.range s.cfg.pages).flatMap (fun p =>
        .cmdSeq [s.cfg.cmdtab.columnAddr, 0, BitVec.ofNat 8 (s.cfg.width - 1),
          s.cfg.cmdtab.pageAddr, BitVec.ofNat 8 p, BitVec.ofNat 8 p] ::
        (chunks s.cfg.maxXfer (s.pageBlock p)).map .data)
      | .page => (List.range s.cfg.pages).flatMap (fun p =>
        .cmdSeq [s.cfg.cmdtab.pageStartBase ||| BitVec.ofNat 8 p, s.cfg.cmdtab.colLowBase,
          s.cfg.cmdtab.colHighBase] ::
        (chunks s.cfg.maxXfer (s.pageBlock p)).map .data)) →
    final = (if s.mode = .horizontal then
        ⟨0, BitVec.ofNat 8 (s.cfg.width - 1), 0, BitVec.ofNat 5 (s.cfg.pages - 1)⟩
      else ⟨0, BitVec.ofNat 8 (s.cfg.width - 1), BitVec.ofNat 5 (s.cfg.pages - 1),
        BitVec.ofNat 5 (s.cfg.pages - 1)⟩) →
    (∀ es, s.env = List.replicate plan.length (.reply .ok) ++ es →
      exec .flush s = .next { s with
        window := final, code := .ok, cause := .ok, trace := s.trace ++ plan, env := es }) ∧
    (∀ j es, j < plan.length → s.env = List.replicate j (.reply .ok) ++ .reply .err :: es →
      exec .flush s = .next { s with
        code := .protocolError, cause := .transportError, trace := s.trace ++ plan.take (j + 1), env := es }) ∧
    (∀ j es, j < plan.length → noReply es = true → s.env = List.replicate j (.reply .ok) ++ es →
      exec .flush s = .next { s with
        seq := some ⟨.flush, j, .busCall⟩, trace := s.trace ++ plan.take (j + 1), env := es })

/-- R196, R199: whatever a FLUSH comes to, the framebuffer, the controller state and the plan of the next FLUSH are as
before, so a retried FLUSH sends the same plan from its start. -/
def Obligations.RetriedFlushSendsTheSamePlan : Prop :=
  ∀ s t : State, exec .flush s = .next t →
    (∀ a, t.memRead a = s.memRead a) ∧ t.ctrlState = s.ctrlState ∧ t.flushItems = s.flushItems

/-- R200: CLOSE; with no answer yet the call is outstanding and the block BUSY. -/
def Obligations.CloseFollowsItsRule : Prop :=
  ∀ (s : State) (es : List Event), s.ready →
    (s.isOn = true → s.env = .reply .ok :: es →
      exec .close s = .next { s with
        ctrlState := .poweredOff, isOpen := false, code := .ok, cause := .ok,
        trace := s.trace ++ [.cmd s.cfg.cmdtab.displayOff], env := es }) ∧
    (s.isOn = true → s.env = .reply .err :: es →
      exec .close s = .next { s with
        isOpen := false, code := .ok, cause := .protocolError,
        trace := s.trace ++ [.cmd s.cfg.cmdtab.displayOff], env := es }) ∧
    (s.isOn = true → noReply s.env = true →
      exec .close s = .next { s with
        seq := some ⟨.close, 0, .busCall⟩, trace := s.trace ++ [.cmd s.cfg.cmdtab.displayOff] }) ∧
    (s.isOn = false →
      exec .close s = .next { s with isOpen := false, code := .ok, cause := .invalidState })

/-- R191: after CLOSE every legal command but NOP completes with INVALID_STATE and changes nothing else; register
reads stay legal. -/
def Obligations.ClosedSessionRefusesCommands : Prop :=
  (∀ (s : State) (i : Instr), s.seq = none → s.isOpen = false → i ≠ .nop →
    exec i s = .next { s with code := .invalidState, cause := .ok }) ∧
  (∀ (s : State) (off : Nat) (es : List Event), s.seq = none → s.port = [] → s.isOpen = false → off < 32 →
    off % 4 = 0 → s.env = .read (s.cfg.base + off) 4 :: es →
    step s = .next { s with readData := s.readRegister off, env := es })

/-- The frame of BEGIN, FLUSH and CLOSE, in every state and whatever the bus answers: no byte of the framebuffer, no
PIXEL; FLUSH writes WINDOW and the result fields only; CLOSE writes OPEN, STATE and the result fields only; BEGIN
leaves OPEN. -/
def Obligations.SessionCommandFrame : Prop :=
  ∀ (i : Instr) (s t : State), ((∃ m c v, i = .begin m c v) ∨ i = .flush ∨ i = .close) → exec i s = .next t →
    t.cfg = s.cfg ∧ t.fbReset = s.fbReset ∧ (∀ a, t.memRead a = s.memRead a) ∧ t.pixel = s.pixel ∧
    t.readData = s.readData ∧ (s.seq = none → t.port = s.port) ∧
    (i ≠ .close → t.isOpen = s.isOpen) ∧
    (i = .close → t.window = s.window) ∧
    (i = .flush → t.ctrlState = s.ctrlState) ∧
    (i = .flush ∨ i = .close →
      t.contrast = s.contrast ∧ t.mode = s.mode ∧ t.vccExt = s.vccExt ∧ t.inverted = s.inverted)

/-! ### The whole machine -/

/-- R41 and the rules bound into `State.inv`: every step keeps the invariant, from any state that meets it. -/
def Obligations.StepKeepsTheInvariant : Prop :=
  ∀ s t : State, s.inv = true → step s = .next t → t.inv = true

/-- R40, R41: the invariant holds after every reset. -/
def Obligations.ResetMeetsTheInvariant : Prop :=
  (∀ (c : Config) (draw : List Byte), c.wf = true → draw.length = c.fbBytes →
    (State.resetTo c draw).inv = true) ∧ State.reset.inv = true

/-- R40: the reset values, read as registers, with the framebuffer the draw, the sequencer idle and the trace empty. -/
def Obligations.ResetValues : Prop :=
  ∀ (c : Config) (draw : List Byte) (s : State), s = State.resetTo c draw →
    s.ctrlState = .uninitialized ∧ s.isActive = false ∧ s.isOpen = true ∧ s.busy = false ∧ s.code = .ok ∧
    s.cause = .ok ∧ s.pixel = false ∧ s.contrast = 0 ∧ s.mode = .page ∧ s.vccExt = false ∧ s.inverted = false ∧
    s.window = ⟨0, BitVec.ofNat 8 (c.width - 1), 0, BitVec.ofNat 5 (c.pages - 1)⟩ ∧ s.cfg = c ∧
    (∀ a, a < draw.length → some (s.memRead a) = draw[a]?) ∧ s.seq = none ∧ s.trace = [] ∧
    s.statusWord = 0x00000008 ∧ s.ctrlWord = 0x00000200

/-- R250, R251: a reset, also while a command runs, abandons it and leaves the reset values; nothing is issued and the
result of the abandoned command is never written. What is not the block's (the events to come, the held CMD writes,
the host's last read) stays: of the held writes that is the model's choice, log entry 4. -/
def Obligations.ResetAbandonsTheRunningCommand : Prop :=
  ∀ (s : State) (c : Config) (draw : List Byte) (es : List Event), (s.busy = true ∨ s.port = []) →
    s.env = .reset c draw :: es → c.wf = true → draw.length = c.fbBytes →
    step s = .next { State.resetTo c draw with env := es, port := s.port, readData := s.readData }

/-- R21, R68: a register read returns CMD as 0, STATUS, CTRL, WINDOW, DIM, and 0 for the reserved offsets, and changes
nothing of the block; a write to any register but CMD is ignored. Aligned is said of the offset, whatever BASE is: the
model's choice, log entry 18. -/
def Obligations.RegisterWindowAccesses : Prop :=
  ∀ (s : State) (off : Nat) (es : List Event), (s.busy = true ∨ s.port = []) → off < 32 → off % 4 = 0 →
    (s.env = .read (s.cfg.base + off) 4 :: es →
      step s = .next { s with
        readData := if off = 0x04 then s.statusWord else if off = 0x08 then s.ctrlWord
          else if off = 0x0C then s.window.toWord else if off = 0x10 then dimWord s.cfg else 0
        env := es }) ∧
    (∀ d, off ≠ 0 → s.env = .write (s.cfg.base + off) 4 d :: es → step s = .next { s with env := es })

/-- R23, R25, R26, R28, R30 to R33, R220, R221: the fields of the registers, with the numbers of STATE, MODE, CODE and
CAUSE. -/
def Obligations.RegisterFields : Prop :=
  ∀ (s : State) (number : Code → BitVec 4),
    number = (fun c => match c with
      | .ok => 0
      | .transportError => 1
      | .protocolError => 2
      | .invalidState => 3
      | .outOfRange => 4
      | .initializationError => 5
      | .illegalCommand => 6) →
    (s.statusWord.extractLsb' 0 2 = (match s.ctrlState with
        | .uninitialized => 0
        | .poweredOff => 1
        | .active => 2
        | .sleeping => 3) ∧
      s.statusWord.getLsbD 2 = decide (s.statusWord.extractLsb' 0 2 = 2#2) ∧
      s.statusWord.getLsbD 3 = s.isOpen ∧ s.statusWord.getLsbD 4 = decide (s.seq ≠ none) ∧
      s.statusWord.extractLsb' 5 3 = 0 ∧ s.statusWord.extractLsb' 8 4 = number s.code ∧
      s.statusWord.extractLsb' 12 4 = number s.cause ∧ s.statusWord.getLsbD 16 = s.pixel ∧
      s.statusWord.extractLsb' 17 15 = 0) ∧
    (s.ctrlWord.extractLsb' 0 8 = s.contrast ∧ s.ctrlWord.extractLsb' 8 2 = (match s.mode with
        | .horizontal => 0
        | .vertical => 1
        | .page => 2) ∧
      s.ctrlWord.extractLsb' 8 2 ≠ 3#2 ∧ s.ctrlWord.getLsbD 10 = s.vccExt ∧ s.ctrlWord.getLsbD 11 = s.inverted ∧
      s.ctrlWord.extractLsb' 12 20 = 0) ∧
    (s.window.toWord.extractLsb' 18 8 = s.window.c0 ∧ s.window.toWord.extractLsb' 10 8 = s.window.c1 ∧
      s.window.toWord.extractLsb' 5 5 = s.window.p0 ∧ s.window.toWord.extractLsb' 0 5 = s.window.p1 ∧
      s.window.toWord.extractLsb' 26 6 = 0) ∧
    (s.cfg.wf = true → (dimWord s.cfg).extractLsb' 0 8 = BitVec.ofNat 8 s.cfg.width ∧
      ((dimWord s.cfg).extractLsb' 0 8).toNat = s.cfg.width ∧
      ((dimWord s.cfg).extractLsb' 8 8).toNat = s.cfg.height ∧
      ((dimWord s.cfg).extractLsb' 16 4).toNat = s.cfg.pages ∧ (dimWord s.cfg).extractLsb' 20 12 = 0)

/-- R63: a host access of another width than 32 bits, or unaligned, is refused; one outside the window faults.
Unaligned is said of the offset, whatever BASE is: the model's choice, log entry 18. The fault, and which refusal comes
first, are the model's choice too, log entry 10. -/
def Obligations.HostAccessStops : Prop :=
  ∀ (s : State) (addr n : Nat) (d : Word) (es : List Event), (s.busy = true ∨ s.port = []) →
    (s.env = .read addr n :: es ∨ s.env = .write addr n d :: es) →
    (s.cfg.base ≤ addr → addr < s.cfg.base + 32 → n ≠ 4 → step s = .refused .accessWidth) ∧
    (s.cfg.base ≤ addr → addr < s.cfg.base + 32 → n = 4 → (addr - s.cfg.base) % 4 ≠ 0 →
      step s = .refused .accessUnaligned) ∧
    ((addr < s.cfg.base ∨ s.cfg.base + 32 ≤ addr) → step s = .fault .outsideWindow)

/-- R24, R255: while a command runs nothing the host can read but BUSY changes, and neither does the framebuffer: a step
that leaves the block busy has changed only the sequencer, the trace, the CMD port, the events and the host's read. -/
def Obligations.BusyStepsHideResults : Prop :=
  ∀ s t : State, step s = .next t → t.busy = true →
    t = { s with seq := t.seq, trace := t.trace, port := t.port, env := t.env, readData := t.readData }

/-- R222: the result codes each command can complete with. -/
def Obligations.ResultCodesOfEachCommand : Prop :=
  ∀ (s t : State) (i : Instr), s.inv = true → s.resets = false → s.current = some i → step s = .next t →
    t.seq = none →
    t.code = .ok ∨
    (t.code = .invalidState ∧ i ≠ .nop ∧ (s.isOpen = false ∨ isDriver i = true)) ∨
    (t.code = .protocolError ∧ isDriver i = true) ∨
    (t.code = .outOfRange ∧ ∃ c0 c1 p0 p1, i = .setWindow c0 c1 p0 p1) ∨
    (t.code = .initializationError ∧ ∃ m c v, i = .begin m c v)

/-- R223: the first of the conditions that applies is reported, before any transaction is issued: an illegal word, a
closed session, the state gate, the bounds of SET_WINDOW. -/
def Obligations.ErrorPriority : Prop :=
  ∀ (s : State) (w : Word), s.seq = none →
    match decode w with
    | .illegal _ => accept w s = .next { s with code := .illegalCommand, cause := .ok }
    | .legal i =>
      if s.isOpen = false ∧ i ≠ .nop then accept w s = .next { s with code := .invalidState, cause := .ok }
      else if isDriver i = true ∧ s.isOn = false ∧ i ≠ .setPower true then
        accept w s = .next { s with code := .invalidState, cause := .ok }
      else ∀ c0 c1 p0 p1, i = .setWindow c0 c1 p0 p1 → inWindow s.cfg ⟨c0, c1, p0, p1⟩ = false →
        accept w s = .next { s with code := .outOfRange, cause := .ok }

/-- R235: a command that fails leaves the framebuffer and every register but CODE and CAUSE as they were, but for BEGIN,
whose failure sets STATE to UNINITIALIZED; a failure of the state or the bounds issues nothing. -/
def Obligations.FailuresChangeNothingElse : Prop :=
  ∀ (s t : State) (i : Instr), s.resets = false → s.current = some i → step s = .next t → t.seq = none →
    t.code ≠ .ok →
    t = { s with
      code := t.code, cause := t.cause, seq := none, trace := t.trace, port := t.port, env := t.env,
      ctrlState := if t.code = .initializationError then .uninitialized else s.ctrlState } ∧
    (t.code = .initializationError → ∃ m c v, i = .begin m c v) ∧
    (t.code = .invalidState ∨ t.code = .outOfRange → t.trace = s.trace)

/-- R70, R71: but for a reset the trace only grows, and only while a command is accepted or runs. -/
def Obligations.TraceOnlyGrows : Prop :=
  ∀ s t : State, s.resets = false → step s = .next t →
    (∃ xs, t.trace = s.trace ++ xs) ∧ (s.current = none → t.trace = s.trace)

/-- R27, R29, R30, R32, R34: which commands write which piece of state, over every step but a reset. -/
def Obligations.WritersOfEachField : Prop :=
  ∀ s t : State, s.resets = false → step s = .next t →
    t.cfg = s.cfg ∧ t.fbReset = s.fbReset ∧
    (t.fb ≠ s.fb → (∃ x y v, s.current = some (.setPixel x y v)) ∨ s.current = some .clear) ∧
    (t.pixel ≠ s.pixel → ∃ x y, s.current = some (.getPixel x y)) ∧
    (t.contrast ≠ s.contrast → (∃ m c v, s.current = some (.begin m c v)) ∨ ∃ v, s.current = some (.setContrast v)) ∧
    (t.mode ≠ s.mode ∨ t.vccExt ≠ s.vccExt → ∃ m c v, s.current = some (.begin m c v)) ∧
    (t.inverted ≠ s.inverted → (∃ m c v, s.current = some (.begin m c v)) ∨ ∃ f, s.current = some (.setInverted f)) ∧
    (t.window ≠ s.window → (∃ m c v, s.current = some (.begin m c v)) ∨
      (∃ c0 c1 p0 p1, s.current = some (.setWindow c0 c1 p0 p1)) ∨ s.current = some .flush) ∧
    (t.isOpen ≠ s.isOpen → s.current = some .close ∧ t.isOpen = false)

/-! ### Rendering macros -/

/-- R160: the canonical expansion: exactly the in-bounds elements, each with its value, once, by row and then column. -/
def Obligations.ExpansionIsCanonical : Prop :=
  ∀ (c : Config) (t : List (Point × PixelValue)),
    (∀ i, i ∈ expandPoints c t ↔
      ∃ x y v, i = .setPixel x y v ∧ inBounds c x y = true ∧ valueAt t x y = some v) ∧
    (expandPoints c t).Pairwise (fun i j => ∃ x y v x' y' v', i = .setPixel x y v ∧ j = .setPixel x' y' v' ∧
      (y < y' ∨ y = y' ∧ x < x'))

/-- R160: run as commands, the expansion gives each in-bounds pixel of the set its value once (INVERT flips it once) and
leaves every other pixel. Where a list gives a coordinate more than once the first value counts: the model's choice,
log entry 14. -/
def Obligations.ExpansionDrawsEachPixelOnce : Prop :=
  ∀ (s : State) (p : List (Point × PixelValue)), s.ready → Memory.wf s.fbReset s.cfg.fbBytes s.fb = true →
    ∃ t, runCommands (expandPoints s.cfg p) s = some t ∧ t.trace = s.trace ∧ t.ctrlState = s.ctrlState ∧
      ∀ x y, inBounds s.cfg x y = true →
        t.readPixel x y = match valueAt p x y with
          | some v => applyValue v (s.readPixel x y)
          | none => s.readPixel x y

/-- R162: FILL_RECT: the half-open rectangle, empty when w ≤ 0 or h ≤ 0, of w * h pixels otherwise. -/
def Obligations.FillRectSet : Prop :=
  ∀ x y w h : Int,
    (∀ i j, (i, j) ∈ fillRectSet x y w h ↔ (x ≤ i ∧ i < x + w ∧ y ≤ j ∧ j < y + h)) ∧
    (w ≤ 0 ∨ h ≤ 0 → fillRectSet x y w h = []) ∧
    (0 < w → 0 < h → (fillRectSet x y w h).Nodup ∧ ((fillRectSet x y w h).length : Int) = w * h)

/-- R163: DRAW_RECT: the border of the FILL_RECT set, 2w + 2h - 4 pixels for w, h ≥ 2. -/
def Obligations.DrawRectSet : Prop :=
  ∀ x y w h : Int,
    (∀ i j, (i, j) ∈ drawRectSet x y w h ↔
      (x ≤ i ∧ i < x + w ∧ y ≤ j ∧ j < y + h) ∧ (i = x ∨ i = x + w - 1 ∨ j = y ∨ j = y + h - 1)) ∧
    (2 ≤ w → 2 ≤ h → (drawRectSet x y w h).Nodup ∧ ((drawRectSet x y w h).length : Int) = 2 * w + 2 * h - 4)

/-- R165: a line is the same set whichever endpoint comes first. -/
def Obligations.LineSetSwapInvariant : Prop :=
  ∀ x0 y0 x1 y1 : Int, lineSet x0 y0 x1 y1 = lineSet x1 y1 x0 y0

/-- R164: a line holds both endpoints, and max(|dx|, |dy|) + 1 pixels. -/
def Obligations.LineSetEndpointsAndCount : Prop :=
  ∀ x0 y0 x1 y1 : Int,
    (x0, y0) ∈ lineSet x0 y0 x1 y1 ∧ (x1, y1) ∈ lineSet x0 y0 x1 y1 ∧ (lineSet x0 y0 x1 y1).Nodup ∧
    (lineSet x0 y0 x1 y1).length = max (x1 - x0).natAbs (y1 - y0).natAbs + 1

/-- R167: the row spans of a set: between two of its points of one row. -/
def Obligations.SpansFillRows : Prop :=
  ∀ (t : List Point) (i j : Int), (i, j) ∈ spans t ↔ ∃ lo hi, (lo, j) ∈ t ∧ (hi, j) ∈ t ∧ lo ≤ i ∧ i ≤ hi

/-- R168: for r ≥ 1 the circle's outline is a strict subset of its fill, which holds the centre, and every row from
cy - r to cy + r holds a contiguous span of the fill. -/
def Obligations.CircleFillWithoutGaps : Prop :=
  ∀ cx cy r : Int, 1 ≤ r →
    (∀ p, p ∈ drawCircleSet cx cy r → p ∈ fillCircleSet cx cy r) ∧
    (cx, cy) ∈ fillCircleSet cx cy r ∧ (cx, cy) ∉ drawCircleSet cx cy r ∧
    (∀ j, cy - r ≤ j → j ≤ cy + r → ∃ i, (i, j) ∈ fillCircleSet cx cy r) ∧
    (∀ j a b i, (a, j) ∈ fillCircleSet cx cy r → (b, j) ∈ fillCircleSet cx cy r → a ≤ i → i ≤ b →
      (i, j) ∈ fillCircleSet cx cy r)

/-- R172: BLIT_GLYPH gives each pixel of a cell's block the cell's value, or none where bg is TRANSPARENT, and draws
nothing outside the cells or when the scale is not positive. -/
def Obligations.GlyphCells : Prop :=
  ∀ (x y s : Int) (g : Glyph) (fg : PixelValue) (bg : Option PixelValue),
    (s ≤ 0 → blitGlyphSet x y g s fg bg = []) ∧
    (0 < s → ∀ i j : Nat, i < g.cols → j < g.rows → ∀ px py : Int,
      x + i * s ≤ px → px < x + (i + 1) * s → y + j * s ≤ py → py < y + (j + 1) * s →
      valueAt (blitGlyphSet x y g s fg bg) px py = if g.bit i j then some fg else bg) ∧
    (∀ px py : Int, (px < x ∨ x + g.cols * s ≤ px ∨ py < y ∨ y + g.rows * s ≤ py) →
      valueAt (blitGlyphSet x y g s fg bg) px py = none)

/-- R173: BLIT_BITMAP draws the 1-bits, rows of ceil(bw/8) bytes, most significant bit first. -/
def Obligations.BitmapOneBits : Prop :=
  ∀ (x y : Int) (bm : List Byte) (bw bh : Int) (p : Point),
    p ∈ blitBitmapSet x y bm bw bh ↔ ∃ i j : Nat, (i : Int) < bw ∧ (j : Int) < bh ∧
      p = (x + i, y + j) ∧ (bm.getD (j * ((bw.toNat + 7) / 8) + i / 8) 0).getLsbD (7 - i % 8) = true
end

