-- ==== Sys2Proof/Laws/State.lean ====
section
/-! SUPPORT. The small lemmas of the state's updates: one lemma for each field under each update, true by rfl. -/

namespace Sys2Proof.Machine

variable (s : State)

@[simp] theorem State.raise_eq (c d : Code) : s.raise c d = s.complete c d := rfl

/-! ### memWrite -/

@[simp] theorem State.memWrite_cfg (a : Nat) (v : Byte) : (s.memWrite a v).cfg = s.cfg := rfl
@[simp] theorem State.memWrite_ctrlState (a : Nat) (v : Byte) : (s.memWrite a v).ctrlState = s.ctrlState := rfl
@[simp] theorem State.memWrite_isOpen (a : Nat) (v : Byte) : (s.memWrite a v).isOpen = s.isOpen := rfl
@[simp] theorem State.memWrite_code (a : Nat) (v : Byte) : (s.memWrite a v).code = s.code := rfl
@[simp] theorem State.memWrite_cause (a : Nat) (v : Byte) : (s.memWrite a v).cause = s.cause := rfl
@[simp] theorem State.memWrite_pixel (a : Nat) (v : Byte) : (s.memWrite a v).pixel = s.pixel := rfl
@[simp] theorem State.memWrite_contrast (a : Nat) (v : Byte) : (s.memWrite a v).contrast = s.contrast := rfl
@[simp] theorem State.memWrite_mode (a : Nat) (v : Byte) : (s.memWrite a v).mode = s.mode := rfl
@[simp] theorem State.memWrite_vccExt (a : Nat) (v : Byte) : (s.memWrite a v).vccExt = s.vccExt := rfl
@[simp] theorem State.memWrite_inverted (a : Nat) (v : Byte) : (s.memWrite a v).inverted = s.inverted := rfl
@[simp] theorem State.memWrite_window (a : Nat) (v : Byte) : (s.memWrite a v).window = s.window := rfl
@[simp] theorem State.memWrite_fbReset (a : Nat) (v : Byte) : (s.memWrite a v).fbReset = s.fbReset := rfl
@[simp] theorem State.memWrite_fb (a : Nat) (v : Byte) : (s.memWrite a v).fb = Memory.write s.fbReset s.fb a v := rfl
@[simp] theorem State.memWrite_seq (a : Nat) (v : Byte) : (s.memWrite a v).seq = s.seq := rfl
@[simp] theorem State.memWrite_trace (a : Nat) (v : Byte) : (s.memWrite a v).trace = s.trace := rfl
@[simp] theorem State.memWrite_port (a : Nat) (v : Byte) : (s.memWrite a v).port = s.port := rfl
@[simp] theorem State.memWrite_env (a : Nat) (v : Byte) : (s.memWrite a v).env = s.env := rfl
@[simp] theorem State.memWrite_readData (a : Nat) (v : Byte) : (s.memWrite a v).readData = s.readData := rfl

/-! ### clearFb -/

@[simp] theorem State.clearFb_cfg : (s.clearFb).cfg = s.cfg := rfl
@[simp] theorem State.clearFb_ctrlState : (s.clearFb).ctrlState = s.ctrlState := rfl
@[simp] theorem State.clearFb_isOpen : (s.clearFb).isOpen = s.isOpen := rfl
@[simp] theorem State.clearFb_code : (s.clearFb).code = s.code := rfl
@[simp] theorem State.clearFb_cause : (s.clearFb).cause = s.cause := rfl
@[simp] theorem State.clearFb_pixel : (s.clearFb).pixel = s.pixel := rfl
@[simp] theorem State.clearFb_contrast : (s.clearFb).contrast = s.contrast := rfl
@[simp] theorem State.clearFb_mode : (s.clearFb).mode = s.mode := rfl
@[simp] theorem State.clearFb_vccExt : (s.clearFb).vccExt = s.vccExt := rfl
@[simp] theorem State.clearFb_inverted : (s.clearFb).inverted = s.inverted := rfl
@[simp] theorem State.clearFb_window : (s.clearFb).window = s.window := rfl
@[simp] theorem State.clearFb_fbReset : (s.clearFb).fbReset = s.fbReset := rfl
@[simp] theorem State.clearFb_fb : (s.clearFb).fb = (List.range s.cfg.fbBytes).foldl (fun m a => Memory.write s.fbReset m a 0) s.fb := rfl
@[simp] theorem State.clearFb_seq : (s.clearFb).seq = s.seq := rfl
@[simp] theorem State.clearFb_trace : (s.clearFb).trace = s.trace := rfl
@[simp] theorem State.clearFb_port : (s.clearFb).port = s.port := rfl
@[simp] theorem State.clearFb_env : (s.clearFb).env = s.env := rfl
@[simp] theorem State.clearFb_readData : (s.clearFb).readData = s.readData := rfl

/-! ### record -/

@[simp] theorem State.record_cfg (x : Xact) : (s.record x).cfg = s.cfg := rfl
@[simp] theorem State.record_ctrlState (x : Xact) : (s.record x).ctrlState = s.ctrlState := rfl
@[simp] theorem State.record_isOpen (x : Xact) : (s.record x).isOpen = s.isOpen := rfl
@[simp] theorem State.record_code (x : Xact) : (s.record x).code = s.code := rfl
@[simp] theorem State.record_cause (x : Xact) : (s.record x).cause = s.cause := rfl
@[simp] theorem State.record_pixel (x : Xact) : (s.record x).pixel = s.pixel := rfl
@[simp] theorem State.record_contrast (x : Xact) : (s.record x).contrast = s.contrast := rfl
@[simp] theorem State.record_mode (x : Xact) : (s.record x).mode = s.mode := rfl
@[simp] theorem State.record_vccExt (x : Xact) : (s.record x).vccExt = s.vccExt := rfl
@[simp] theorem State.record_inverted (x : Xact) : (s.record x).inverted = s.inverted := rfl
@[simp] theorem State.record_window (x : Xact) : (s.record x).window = s.window := rfl
@[simp] theorem State.record_fbReset (x : Xact) : (s.record x).fbReset = s.fbReset := rfl
@[simp] theorem State.record_fb (x : Xact) : (s.record x).fb = s.fb := rfl
@[simp] theorem State.record_seq (x : Xact) : (s.record x).seq = s.seq := rfl
@[simp] theorem State.record_trace (x : Xact) : (s.record x).trace = s.trace ++ [x] := rfl
@[simp] theorem State.record_port (x : Xact) : (s.record x).port = s.port := rfl
@[simp] theorem State.record_env (x : Xact) : (s.record x).env = s.env := rfl
@[simp] theorem State.record_readData (x : Xact) : (s.record x).readData = s.readData := rfl

/-! ### complete -/

@[simp] theorem State.complete_cfg (c d : Code) : (s.complete c d).cfg = s.cfg := rfl
@[simp] theorem State.complete_ctrlState (c d : Code) : (s.complete c d).ctrlState = s.ctrlState := rfl
@[simp] theorem State.complete_isOpen (c d : Code) : (s.complete c d).isOpen = s.isOpen := rfl
@[simp] theorem State.complete_code (c d : Code) : (s.complete c d).code = c := rfl
@[simp] theorem State.complete_cause (c d : Code) : (s.complete c d).cause = d := rfl
@[simp] theorem State.complete_pixel (c d : Code) : (s.complete c d).pixel = s.pixel := rfl
@[simp] theorem State.complete_contrast (c d : Code) : (s.complete c d).contrast = s.contrast := rfl
@[simp] theorem State.complete_mode (c d : Code) : (s.complete c d).mode = s.mode := rfl
@[simp] theorem State.complete_vccExt (c d : Code) : (s.complete c d).vccExt = s.vccExt := rfl
@[simp] theorem State.complete_inverted (c d : Code) : (s.complete c d).inverted = s.inverted := rfl
@[simp] theorem State.complete_window (c d : Code) : (s.complete c d).window = s.window := rfl
@[simp] theorem State.complete_fbReset (c d : Code) : (s.complete c d).fbReset = s.fbReset := rfl
@[simp] theorem State.complete_fb (c d : Code) : (s.complete c d).fb = s.fb := rfl
@[simp] theorem State.complete_seq (c d : Code) : (s.complete c d).seq = none := rfl
@[simp] theorem State.complete_trace (c d : Code) : (s.complete c d).trace = s.trace := rfl
@[simp] theorem State.complete_port (c d : Code) : (s.complete c d).port = s.port := rfl
@[simp] theorem State.complete_env (c d : Code) : (s.complete c d).env = s.env := rfl
@[simp] theorem State.complete_readData (c d : Code) : (s.complete c d).readData = s.readData := rfl

/-! ### hold -/

@[simp] theorem State.hold_cfg (w : Word) : (s.hold w).cfg = s.cfg := rfl
@[simp] theorem State.hold_ctrlState (w : Word) : (s.hold w).ctrlState = s.ctrlState := rfl
@[simp] theorem State.hold_isOpen (w : Word) : (s.hold w).isOpen = s.isOpen := rfl
@[simp] theorem State.hold_code (w : Word) : (s.hold w).code = s.code := rfl
@[simp] theorem State.hold_cause (w : Word) : (s.hold w).cause = s.cause := rfl
@[simp] theorem State.hold_pixel (w : Word) : (s.hold w).pixel = s.pixel := rfl
@[simp] theorem State.hold_contrast (w : Word) : (s.hold w).contrast = s.contrast := rfl
@[simp] theorem State.hold_mode (w : Word) : (s.hold w).mode = s.mode := rfl
@[simp] theorem State.hold_vccExt (w : Word) : (s.hold w).vccExt = s.vccExt := rfl
@[simp] theorem State.hold_inverted (w : Word) : (s.hold w).inverted = s.inverted := rfl
@[simp] theorem State.hold_window (w : Word) : (s.hold w).window = s.window := rfl
@[simp] theorem State.hold_fbReset (w : Word) : (s.hold w).fbReset = s.fbReset := rfl
@[simp] theorem State.hold_fb (w : Word) : (s.hold w).fb = s.fb := rfl
@[simp] theorem State.hold_seq (w : Word) : (s.hold w).seq = s.seq := rfl
@[simp] theorem State.hold_trace (w : Word) : (s.hold w).trace = s.trace := rfl
@[simp] theorem State.hold_port (w : Word) : (s.hold w).port = s.port ++ [w] := rfl
@[simp] theorem State.hold_env (w : Word) : (s.hold w).env = s.env := rfl
@[simp] theorem State.hold_readData (w : Word) : (s.hold w).readData = s.readData := rfl

/-! ### offer -/

@[simp] theorem State.offer_cfg (w : Word) : (s.offer w).cfg = s.cfg := rfl
@[simp] theorem State.offer_ctrlState (w : Word) : (s.offer w).ctrlState = s.ctrlState := rfl
@[simp] theorem State.offer_isOpen (w : Word) : (s.offer w).isOpen = s.isOpen := rfl
@[simp] theorem State.offer_code (w : Word) : (s.offer w).code = s.code := rfl
@[simp] theorem State.offer_cause (w : Word) : (s.offer w).cause = s.cause := rfl
@[simp] theorem State.offer_pixel (w : Word) : (s.offer w).pixel = s.pixel := rfl
@[simp] theorem State.offer_contrast (w : Word) : (s.offer w).contrast = s.contrast := rfl
@[simp] theorem State.offer_mode (w : Word) : (s.offer w).mode = s.mode := rfl
@[simp] theorem State.offer_vccExt (w : Word) : (s.offer w).vccExt = s.vccExt := rfl
@[simp] theorem State.offer_inverted (w : Word) : (s.offer w).inverted = s.inverted := rfl
@[simp] theorem State.offer_window (w : Word) : (s.offer w).window = s.window := rfl
@[simp] theorem State.offer_fbReset (w : Word) : (s.offer w).fbReset = s.fbReset := rfl
@[simp] theorem State.offer_fb (w : Word) : (s.offer w).fb = s.fb := rfl
@[simp] theorem State.offer_seq (w : Word) : (s.offer w).seq = none := rfl
@[simp] theorem State.offer_trace (w : Word) : (s.offer w).trace = s.trace := rfl
@[simp] theorem State.offer_port (w : Word) : (s.offer w).port = w :: s.port := rfl
@[simp] theorem State.offer_env (w : Word) : (s.offer w).env = s.env := rfl
@[simp] theorem State.offer_readData (w : Word) : (s.offer w).readData = s.readData := rfl

end Sys2Proof.Machine
end

