-- ==== Sys2Proof/Laws/Memory.lean ====
section
/-! SUPPORT. The framebuffer store: a read after a write, and that every operation keeps the canonical form
`Memory.wf`. -/

namespace Sys2Proof.Machine

/-! ### Sorted lists of cells -/

theorem Memory.rising_mono {lo lo' : Nat} {m : List Host.Cell} (h : lo ≤ lo') (hm : Memory.rising lo' m) :
    Memory.rising lo m := by
  cases m with
  | nil => rfl
  | cons c m =>
    obtain ⟨a, v⟩ := c
    simp only [Memory.rising, Bool.and_eq_true, decide_eq_true_eq] at hm ⊢
    exact ⟨by omega, hm.2⟩

theorem Memory.lookup_none_of_lt {m : List Host.Cell} {lo a : Nat} (hm : Memory.rising lo m) (h : a < lo) :
    Memory.lookup m a = none := by
  induction m generalizing lo with
  | nil => rfl
  | cons c m ih =>
    obtain ⟨b, v⟩ := c
    simp only [Memory.rising, Bool.and_eq_true, decide_eq_true_eq] at hm
    have hne : b ≠ a := by omega
    simp only [Memory.lookup, if_neg hne]
    exact ih hm.2 (by omega)

theorem Memory.lookup_insert (m : List Host.Cell) (a b : Nat) (v : Byte) :
    Memory.lookup (Memory.insert m a v) b = if a = b then some v else Memory.lookup m b := by
  induction m with
  | nil => simp [Memory.insert, Memory.lookup]
  | cons c m ih =>
    obtain ⟨d, u⟩ := c
    unfold Memory.insert
    split
    · subst d
      by_cases hab : a = b <;> simp [Memory.lookup, hab]
    · split
      · simp [Memory.lookup]
      · by_cases hdb : d = b
        · subst d
          simp [Memory.lookup, show a ≠ b by omega]
        · simp [Memory.lookup, hdb, ih]

theorem Memory.lookup_erase {m : List Host.Cell} {lo : Nat} (hm : Memory.rising lo m) (a b : Nat) :
    Memory.lookup (Memory.erase m a) b = if a = b then none else Memory.lookup m b := by
  induction m generalizing lo with
  | nil => simp [Memory.erase, Memory.lookup]
  | cons c m ih =>
    obtain ⟨d, u⟩ := c
    simp only [Memory.rising, Bool.and_eq_true, decide_eq_true_eq] at hm
    unfold Memory.erase
    split
    · subst d
      by_cases hab : a = b
      · subst b
        simp [Memory.lookup_none_of_lt hm.2 (Nat.lt_succ_self a)]
      · simp [Memory.lookup, hab]
    · by_cases hdb : d = b
      · subst d
        simp [Memory.lookup, show a ≠ b by omega]
      · simp [Memory.lookup, hdb, ih hm.2]

theorem Memory.rising_insert {m : List Host.Cell} {lo a : Nat} (v : Byte) (hm : Memory.rising lo m) (h : lo ≤ a) :
    Memory.rising lo (Memory.insert m a v) := by
  induction m generalizing lo with
  | nil => simpa [Memory.insert, Memory.rising] using h
  | cons c m ih =>
    obtain ⟨d, u⟩ := c
    have hm' := hm
    simp only [Memory.rising, Bool.and_eq_true, decide_eq_true_eq] at hm
    unfold Memory.insert
    split
    · subst d
      simpa [Memory.rising] using hm
    · split
      · simp only [Memory.rising, Bool.and_eq_true, decide_eq_true_eq]
        exact ⟨h, by omega, hm.2⟩
      · simp only [Memory.rising, Bool.and_eq_true, decide_eq_true_eq]
        exact ⟨hm.1, ih hm.2 (by omega)⟩

theorem Memory.rising_erase {m : List Host.Cell} {lo : Nat} (a : Nat) (hm : Memory.rising lo m) :
    Memory.rising lo (Memory.erase m a) := by
  induction m generalizing lo with
  | nil => rfl
  | cons c m ih =>
    obtain ⟨d, u⟩ := c
    simp only [Memory.rising, Bool.and_eq_true, decide_eq_true_eq] at hm
    unfold Memory.erase
    split
    · exact Memory.rising_mono (by omega) hm.2
    · simp only [Memory.rising, Bool.and_eq_true, decide_eq_true_eq]
      exact ⟨hm.1, ih hm.2⟩

theorem Memory.mem_insert {m : List Host.Cell} {a : Nat} {v : Byte} {c : Host.Cell}
    (h : c ∈ Memory.insert m a v) : c = (a, v) ∨ c ∈ m := by
  induction m with
  | nil => simpa [Memory.insert] using h
  | cons d m ih =>
    obtain ⟨b, u⟩ := d
    unfold Memory.insert at h
    split at h
    · rcases List.mem_cons.mp h with h | h
      · exact .inl h
      · exact .inr (List.mem_cons_of_mem _ h)
    · split at h
      · rcases List.mem_cons.mp h with h | h
        · exact .inl h
        · exact .inr h
      · rcases List.mem_cons.mp h with h | h
        · exact .inr (h ▸ List.mem_cons_self)
        · exact (ih h).imp_right (List.mem_cons_of_mem _)

theorem Memory.mem_erase {m : List Host.Cell} {a : Nat} {c : Host.Cell} (h : c ∈ Memory.erase m a) : c ∈ m := by
  induction m with
  | nil => exact h
  | cons d m ih =>
    obtain ⟨b, u⟩ := d
    unfold Memory.erase at h
    split at h
    · exact List.mem_cons_of_mem _ h
    · rcases List.mem_cons.mp h with h | h
      · exact h ▸ List.mem_cons_self
      · exact List.mem_cons_of_mem _ (ih h)

/-! ### The canonical form -/

theorem Memory.wf_iff {draw : List Byte} {n : Nat} {m : List Host.Cell} :
    Memory.wf draw n m ↔
      Memory.rising 0 m ∧ ∀ c ∈ m, c.1 < n ∧ c.2 ≠ Memory.unlisted draw c.1 := by
  simp [Memory.wf]

/-- The memory of a reset state, with nothing listed, is in canonical form. -/
theorem Memory.wf_nil (draw : List Byte) (n : Nat) : Memory.wf draw n [] := rfl

/-- A write inside the framebuffer keeps the canonical form. -/
theorem Memory.wf_write {draw : List Byte} {n a : Nat} {m : List Host.Cell} (v : Byte)
    (hm : Memory.wf draw n m) (ha : a < n) : Memory.wf draw n (Memory.write draw m a v) := by
  rw [Memory.wf_iff] at hm ⊢
  unfold Memory.write
  split
  · exact ⟨Memory.rising_erase a hm.1, fun c hc => hm.2 c (Memory.mem_erase hc)⟩
  · rename_i hv
    refine ⟨Memory.rising_insert v hm.1 (Nat.zero_le a), fun c hc => ?_⟩
    rcases Memory.mem_insert hc with rfl | hc
    · exact ⟨ha, hv⟩
    · exact hm.2 c hc

/-- Writing any list of addresses inside the framebuffer keeps the canonical form. -/
theorem Memory.wf_writes {draw : List Byte} {n : Nat} (v : Byte) (l : List Nat) {m : List Host.Cell}
    (hm : Memory.wf draw n m) (hl : ∀ a ∈ l, a < n) :
    Memory.wf draw n (l.foldl (fun m a => Memory.write draw m a v) m) := by
  induction l generalizing m with
  | nil => exact hm
  | cons a l ih =>
    exact ih (Memory.wf_write v hm (hl a List.mem_cons_self)) (fun b hb => hl b (List.mem_cons_of_mem _ hb))

/-- What a read gives after a write: the value at the address written, every other byte as before. -/
theorem Memory.read_write {draw : List Byte} {m : List Host.Cell} (hm : Memory.rising 0 m) (a b : Nat) (v : Byte) :
    Memory.read draw (Memory.write draw m a v) b = if a = b then v else Memory.read draw m b := by
  unfold Memory.write Memory.read
  split
  · rename_i hv
    rw [Memory.lookup_erase hm]
    split
    · subst b; simp [hv]
    · rfl
  · rw [Memory.lookup_insert]
    split <;> rfl

theorem Memory.rising_write {draw : List Byte} {m : List Host.Cell} (hm : Memory.rising 0 m) (a : Nat) (v : Byte) :
    Memory.rising 0 (Memory.write draw m a v) := by
  unfold Memory.write
  split
  · exact Memory.rising_erase a hm
  · exact Memory.rising_insert v hm (Nat.zero_le a)

/-- What a read gives after a list of writes of one value. -/
theorem Memory.read_writes {draw : List Byte} (v : Byte) (l : List Nat) {m : List Host.Cell}
    (hm : Memory.rising 0 m) (b : Nat) :
    Memory.read draw (l.foldl (fun m a => Memory.write draw m a v) m) b =
      if b ∈ l then v else Memory.read draw m b := by
  induction l generalizing m with
  | nil => simp
  | cons a l ih =>
    rw [List.foldl_cons, ih (Memory.rising_write hm a v), Memory.read_write hm]
    by_cases hb : b ∈ l
    · simp [hb]
    · by_cases hab : a = b
      · simp [hab]
      · simp [hb, hab, Ne.symm hab]

/-! ### The framebuffer of a state -/

theorem State.rising_of_wf {s : State} (h : Memory.wf s.fbReset s.cfg.fbBytes s.fb) : Memory.rising 0 s.fb :=
  (Memory.wf_iff.mp h).1

theorem State.memRead_memWrite {s : State} (hm : Memory.rising 0 s.fb) (a b : Nat) (v : Byte) :
    (s.memWrite a v).memRead b = if a = b then v else s.memRead b :=
  Memory.read_write hm a b v

theorem State.memRead_clearFb {s : State} (hm : Memory.rising 0 s.fb) (b : Nat) :
    s.clearFb.memRead b = if b < s.cfg.fbBytes then 0 else s.memRead b := by
  have h := Memory.read_writes (draw := s.fbReset) 0 (List.range s.cfg.fbBytes) hm b
  simpa [State.memRead] using h

theorem State.wf_memWrite {s : State} (hm : Memory.wf s.fbReset s.cfg.fbBytes s.fb) {a : Nat} (v : Byte)
    (ha : a < s.cfg.fbBytes) : Memory.wf s.fbReset s.cfg.fbBytes (s.memWrite a v).fb :=
  Memory.wf_write v hm ha

theorem State.wf_clearFb {s : State} (hm : Memory.wf s.fbReset s.cfg.fbBytes s.fb) :
    Memory.wf s.fbReset s.cfg.fbBytes s.clearFb.fb :=
  Memory.wf_writes 0 _ hm (fun _ ha => List.mem_range.mp ha)

/-- A read looks at the draw and the list only. -/
theorem State.memRead_congr {s t : State} (hd : t.fbReset = s.fbReset) (hf : t.fb = s.fb) (a : Nat) :
    t.memRead a = s.memRead a := by
  simp [State.memRead, hd, hf]

/-- Memory of the state after reset is canonical. -/
theorem State.wf_resetTo (c : Config) (draw : List Byte) :
    Memory.wf (State.resetTo c draw).fbReset (State.resetTo c draw).cfg.fbBytes (State.resetTo c draw).fb := rfl

end Sys2Proof.Machine
end

