-- ==== Sys2Proof/Laws/PerInstr.lean ====
section
/-! SUPPORT. Facts about every instruction as syntax, one lemma per constructor. -/

namespace Sys2Proof.Laws.TableRow

/-- The encoding of an instruction carries exactly the fixed bits of its row of spec/opcode_table.json: under the
row's mask it is the row's match (R89). -/
def Statement (i : Instr) : Prop := encode i &&& tableMask i = tableMatch i

theorem of_bits {i : Instr}
    (h : ∀ k < 32, ((encode i).getLsbD k && (tableMask i).getLsbD k) = (tableMatch i).getLsbD k) : Statement i :=
  BitVec.eq_of_getLsbD_eq (fun k hk => by rw [BitVec.getLsbD_and]; exact h k hk)

theorem nop : Statement .nop := by unfold Statement; decide

theorem begin (m : Mode) (c : Byte) (v : Bool) : Statement (.begin m c v) := by
  apply of_bits
  intro k hk
  simp only [encode, BitVec.getLsbD_setWidth, BitVec.getLsbD_append]
  interval_cases k <;> simp [tableMask, tableMatch]

theorem setWindow (c0 c1 : BitVec 8) (p0 p1 : BitVec 5) : Statement (.setWindow c0 c1 p0 p1) := by
  apply of_bits
  intro k hk
  simp only [encode, BitVec.getLsbD_setWidth, BitVec.getLsbD_append]
  interval_cases k <;> simp [tableMask, tableMatch]

theorem setPower (f : Bool) : Statement (.setPower f) := by cases f <;> (unfold Statement; decide)

theorem setContrast (v : Byte) : Statement (.setContrast v) := by
  apply of_bits
  intro k hk
  simp only [encode, BitVec.getLsbD_setWidth, BitVec.getLsbD_append]
  interval_cases k <;> simp [tableMask, tableMatch]

theorem setInverted (f : Bool) : Statement (.setInverted f) := by cases f <;> (unfold Statement; decide)

theorem setPixel (x y : Int) (v : PixelValue) : Statement (.setPixel x y v) := by
  apply of_bits
  intro k hk
  simp only [encode, BitVec.getLsbD_setWidth, BitVec.getLsbD_append]
  interval_cases k <;> simp [tableMask, tableMatch]

theorem getPixel (x y : Int) : Statement (.getPixel x y) := by
  apply of_bits
  intro k hk
  simp only [encode, BitVec.getLsbD_setWidth, BitVec.getLsbD_append]
  interval_cases k <;> simp [tableMask, tableMatch]

theorem clear : Statement .clear := by unfold Statement; decide

theorem flush : Statement .flush := by unfold Statement; decide

theorem close : Statement .close := by unfold Statement; decide

end Sys2Proof.Laws.TableRow
end

