-- ==== Sys2Proof/Laws/Sequencer.lean ====
section
/-! SUPPORT. What the sequencer can do: the fields a completion leaves alone, and one lemma for each of `issue`,
`deliver`, `serve` and `launch` that says once what it answers. -/

namespace Sys2Proof.Machine

/-! ### Completions -/

section
variable (i : Instr) (s : State)

@[simp] theorem finish_seq : (finish i s).seq = none := by cases i <;> rfl
@[simp] theorem finish_cfg : (finish i s).cfg = s.cfg := by cases i <;> rfl
@[simp] theorem finish_pixel : (finish i s).pixel = s.pixel := by cases i <;> rfl
@[simp] theorem finish_fbReset : (finish i s).fbReset = s.fbReset := by cases i <;> rfl
@[simp] theorem finish_fb : (finish i s).fb = s.fb := by cases i <;> rfl
@[simp] theorem finish_trace : (finish i s).trace = s.trace := by cases i <;> rfl
@[simp] theorem finish_port : (finish i s).port = s.port := by cases i <;> rfl
@[simp] theorem finish_env : (finish i s).env = s.env := by cases i <;> rfl
@[simp] theorem finish_readData : (finish i s).readData = s.readData := by cases i <;> rfl

@[simp] theorem fail_seq : (fail i s).seq = none := by cases i <;> rfl
@[simp] theorem fail_cfg : (fail i s).cfg = s.cfg := by cases i <;> rfl
@[simp] theorem fail_pixel : (fail i s).pixel = s.pixel := by cases i <;> rfl
@[simp] theorem fail_fbReset : (fail i s).fbReset = s.fbReset := by cases i <;> rfl
@[simp] theorem fail_fb : (fail i s).fb = s.fb := by cases i <;> rfl
@[simp] theorem fail_trace : (fail i s).trace = s.trace := by cases i <;> rfl
@[simp] theorem fail_port : (fail i s).port = s.port := by cases i <;> rfl
@[simp] theorem fail_env : (fail i s).env = s.env := by cases i <;> rfl
@[simp] theorem fail_readData : (fail i s).readData = s.readData := by cases i <;> rfl
@[simp] theorem fail_contrast : (fail i s).contrast = s.contrast := by cases i <;> rfl
@[simp] theorem fail_mode : (fail i s).mode = s.mode := by cases i <;> rfl
@[simp] theorem fail_vccExt : (fail i s).vccExt = s.vccExt := by cases i <;> rfl
@[simp] theorem fail_inverted : (fail i s).inverted = s.inverted := by cases i <;> rfl
@[simp] theorem fail_window : (fail i s).window = s.window := by cases i <;> rfl

end

/-! ### What a running command's steps depend on -/

/-- The steps of a command depend on the parameters, the mode and the framebuffer only. -/
theorem items_congr {s t : State} (hc : t.cfg = s.cfg) (hm : t.mode = s.mode) (hd : t.fbReset = s.fbReset)
    (hf : t.fb = s.fb) (i : Instr) : items t i = items s i := by
  have hr : t.memRead = s.memRead := by funext a; simp [State.memRead, hd, hf]
  have hp : t.pageBlock = s.pageBlock := by funext p; simp [State.pageBlock, hc, hr]
  have hg : t.flushPage = s.flushPage := by funext p; simp [State.flushPage, hc, hm, hp]
  cases i <;> simp [items, State.flushItems, State.asPages, hc, hm, hp, hg]

/-! ### issue, deliver, serve, launch -/

/-- Issuing appends to the trace, and either waits at a later step of the same command or completes it. -/
theorem issue_cases (i : Instr) (k : Nat) (l : List Item) (s : State) :
    (∃ xs r, r.cmd = i ∧ issue i k l s = { s with trace := s.trace ++ xs, seq := some r }) ∨
    (∃ xs, issue i k l s = finish i { s with trace := s.trace ++ xs }) := by
  induction l generalizing k s with
  | nil => exact .inr ⟨[], by simp [issue]⟩
  | cons x l ih =>
    cases x with
    | wait => exact .inl ⟨[], ⟨i, k, .powerupDelay⟩, rfl, by simp [issue]⟩
    | tx x =>
      cases x with
      | cmd b => exact .inl ⟨[.cmd b], ⟨i, k, .busCall⟩, rfl, rfl⟩
      | cmdSeq bs => exact .inl ⟨[.cmdSeq bs], ⟨i, k, .busCall⟩, rfl, rfl⟩
      | data bs => exact .inl ⟨[.data bs], ⟨i, k, .busCall⟩, rfl, rfl⟩
      | reset =>
        rcases ih (k + 1) (s.record .reset) with ⟨xs, r, hr, h⟩ | ⟨xs, h⟩
        · exact .inl ⟨.reset :: xs, r, hr, by rw [issue, h]; simp [State.record]⟩
        · exact .inr ⟨.reset :: xs, by rw [issue, h]; simp [State.record]⟩

/-- What running a command to where it must wait, or to its end, makes of a state: `u` is the state with only the
trace (longer), the events to come and the sequencer changed; then the command still runs, or its completion of
success or of failure has happened. -/
def Ran (i : Instr) (s t : State) : Prop :=
  ∃ xs es q, (t = { s with trace := s.trace ++ xs, env := es, seq := q } ∧ ∃ r, q = some r ∧ r.cmd = i) ∨
    t = finish i { s with trace := s.trace ++ xs, env := es, seq := q } ∨
    t = fail i { s with trace := s.trace ++ xs, env := es, seq := q }

theorem issue_ran (i : Instr) (k : Nat) (l : List Item) (s : State) : Ran i s (issue i k l s) := by
  rcases issue_cases i k l s with ⟨xs, r, hr, h⟩ | ⟨xs, h⟩
  · exact ⟨xs, s.env, some r, .inl ⟨h, r, rfl, hr⟩⟩
  · exact ⟨xs, s.env, s.seq, .inr (.inl h)⟩

/-- What a reply makes of a state whose sequencer runs a command. -/
theorem deliver_ran {s : State} {run : Running} (h : s.seq = some run) (r : Reply) :
    Ran run.cmd s (deliver r s) := by
  have stay : Ran run.cmd s s := ⟨[], s.env, s.seq, .inl ⟨by simp, run, h, rfl⟩⟩
  have failed : Ran run.cmd s (fail run.cmd s) := ⟨[], s.env, s.seq, .inr (.inr (by simp))⟩
  obtain ⟨i, k, p⟩ := run
  cases p <;> cases r <;> simp only [deliver, h, advance] <;>
    first | exact issue_ran _ _ _ _ | exact stay | exact failed

theorem deliver_idle {s : State} (h : s.seq = none) (r : Reply) : deliver r s = s := by simp [deliver, h]

theorem Ran.trans_running {i : Instr} {s t u : State} {xs : List Xact} {es : List Event} {q : Option Running}
    (ht : t = { s with trace := s.trace ++ xs, env := es, seq := q }) (hu : Ran i t u) : Ran i s u := by
  subst ht
  obtain ⟨ys, fs, p, h⟩ := hu
  refine ⟨xs ++ ys, fs, p, ?_⟩
  simpa [List.append_assoc] using h

/-- Serving the replies at hand: for an idle block only the list of events is set. -/
theorem serve_idle {s : State} (h : s.seq = none) (es : List Event) : serve es s = { s with env := es } := by
  cases es with
  | nil => rfl
  | cons e es => cases e <;> simp [serve, State.busy, h]

/-- Only the events to come change when the sequencer is left alone. -/
theorem finish_with_env (i : Instr) (s : State) (es : List Event) :
    { finish i s with env := es } = finish i { s with env := es } := by cases i <;> rfl

theorem fail_with_env (i : Instr) (s : State) (es : List Event) :
    { fail i s with env := es } = fail i { s with env := es } := by cases i <;> rfl

/-- With no reply at hand serving only sets the list of events. -/
theorem serve_noReply {es : List Event} (h : noReply es = true) (s : State) : serve es s = { s with env := es } := by
  cases es with
  | nil => rfl
  | cons e es => cases e <;> first | rfl | simp [noReply] at h

/-! What is not the block's (events, CMD port, the host's last read) plays no part in issuing or in a reply. -/

/-- The events, the CMD port and the host's last read replaced. -/
def State.withOthers (s : State) (es : List Event) (p : List Word) (d : Word) : State :=
  { s with env := es, port := p, readData := d }

theorem issue_withOthers (i : Instr) (k : Nat) (l : List Item) (s : State) (es : List Event) (p : List Word) (d : Word) :
    issue i k l (s.withOthers es p d) = (issue i k l s).withOthers es p d := by
  induction l generalizing k s with
  | nil => cases i <;> rfl
  | cons x l ih =>
    cases x with
    | wait => rfl
    | tx x => cases x <;> first | rfl | exact ih (k + 1) (s.record .reset)

theorem advance_withOthers (r : Running) (s : State) (es : List Event) (p : List Word) (d : Word) :
    advance r (s.withOthers es p d) = (advance r s).withOthers es p d := by
  rw [advance, items_congr (s := s) (t := s.withOthers es p d) rfl rfl rfl rfl r.cmd]
  exact issue_withOthers _ _ _ s es p d

theorem deliver_withOthers (r : Reply) (s : State) (es : List Event) (p : List Word) (d : Word) :
    deliver r (s.withOthers es p d) = (deliver r s).withOthers es p d := by
  rcases s with ⟨_, _, _, _, _, _, _, _, _, _, _, _, _, _ | ⟨c, k, _ | _⟩, _, _, _, _⟩
  · rfl
  all_goals cases r <;> first | rfl | exact advance_withOthers _ _ _ _ _ | (cases c <;> rfl)

/-- A command of one transaction with no answer at hand: it is issued and outstanding. -/
theorem launch_one {i : Instr} {s : State} {x : Xact} (h : noReply s.env = true) (hx : x ≠ .reset)
    (hi : items s i = [.tx x]) :
    launch i s = { s with seq := some ⟨i, 0, .busCall⟩, trace := s.trace ++ [x] } := by
  have he : issue i 0 [.tx x] s = { s with seq := some ⟨i, 0, .busCall⟩, trace := s.trace ++ [x] } := by
    cases x <;> first | rfl | exact absurd rfl hx
  rw [launch, hi, he, serve_noReply h]

/-- Serving the replies at hand while a command runs. -/
theorem serve_ran {s : State} {run : Running} (h : s.seq = some run) (es : List Event) :
    Ran run.cmd s (serve es s) := by
  have stop : ∀ fs, Ran run.cmd s { s with env := fs } :=
    fun fs => ⟨[], fs, s.seq, .inl ⟨by simp, run, h, rfl⟩⟩
  induction es generalizing s run with
  | nil => exact stop []
  | cons e es ih =>
    cases e with
    | write a n d => exact stop _
    | read a n => exact stop _
    | reset c d => exact stop _
    | reply r =>
      simp only [serve, State.busy, h, Option.isSome_some, if_true]
      obtain ⟨xs, fs, q, ⟨ht, r', hq, hr'⟩ | ht | ht⟩ := deliver_ran h r
      · have hs : (deliver r s).seq = some r' := by rw [ht]; exact hq
        have := ih hs (fun fs => ⟨[], fs, some r', .inl ⟨by simp [hs], r', rfl, rfl⟩⟩)
        rw [hr'] at this
        exact Ran.trans_running ht this
      · rw [ht, serve_idle (by simp), finish_with_env]
        exact ⟨xs, es, q, .inr (.inl rfl)⟩
      · rw [ht, serve_idle (by simp), fail_with_env]
        exact ⟨xs, es, q, .inr (.inr rfl)⟩

/-- What launching a command makes of a state. -/
theorem launch_ran (i : Instr) (s : State) : Ran i s (launch i s) := by
  obtain ⟨xs, r, hr, h⟩ | ⟨xs, h⟩ := issue_cases i 0 (items s i) s
  · rw [launch, h]
    have := serve_ran (s := { s with trace := s.trace ++ xs, seq := some r }) rfl s.env
    rw [hr] at this
    exact Ran.trans_running (es := s.env) rfl this
  · rw [launch, h, serve_idle (by simp), finish_with_env]
    exact ⟨xs, s.env, s.seq, .inr (.inl rfl)⟩

/-- The fields no running command touches. -/
theorem Ran.frame {i : Instr} {s t : State} (h : Ran i s t) :
    t.cfg = s.cfg ∧ t.pixel = s.pixel ∧ t.fbReset = s.fbReset ∧ t.fb = s.fb ∧ t.port = s.port ∧
      t.readData = s.readData ∧ ∃ xs, t.trace = s.trace ++ xs := by
  obtain ⟨xs, es, q, ⟨rfl, _⟩ | rfl | rfl⟩ := h <;> simp

/-! ### The gates -/

theorem whenIdle_busy {i : Instr} {s : State} (h : s.busy = true) (run : State → State) :
    whenIdle i s run = s.hold (encode i) := by simp [whenIdle, h]

theorem whenIdle_idle {i : Instr} {s : State} (h : s.seq = none) (run : State → State) :
    whenIdle i s run = run s := by simp [whenIdle, State.busy, h]

theorem whenOpen_closed {i : Instr} {s : State} (h : s.seq = none) (ho : s.isOpen = false) (run : State → State) :
    whenOpen i s run = s.complete .invalidState .ok := by simp [whenOpen, whenIdle, State.busy, h, ho]

theorem whenOpen_open {i : Instr} {s : State} (h : s.seq = none) (ho : s.isOpen = true) (run : State → State) :
    whenOpen i s run = run s := by simp [whenOpen, whenIdle, State.busy, h, ho]

theorem driverGate_of_isOn {s : State} (h : s.isOn = true) (i : Instr) : driverGate i s = true := by
  cases hs : s.ctrlState <;> simp [State.isOn, driverGate, hs] at h ⊢

theorem driverGate_setPowerOn (s : State) : driverGate (.setPower true) s = true := by
  cases hs : s.ctrlState <;> simp [driverGate, hs]

theorem whenDriven_gated {i : Instr} {s : State} (h : s.seq = none) (ho : s.isOpen = true)
    (hg : driverGate i s = false) (run : State → State) :
    whenDriven i s run = s.complete .invalidState .ok := by simp [whenDriven, whenOpen_open h ho, hg]

theorem whenDriven_passed {i : Instr} {s : State} (h : s.seq = none) (ho : s.isOpen = true)
    (hg : driverGate i s = true) (run : State → State) : whenDriven i s run = run s := by
  simp [whenDriven, whenOpen_open h ho, hg]

/-! ### exec -/

/-- No instruction's meaning faults or refuses (R224). -/
theorem exec_next (i : Instr) (s : State) : ∃ t, exec i s = .next t := by cases i <;> exact ⟨_, rfl⟩

/-- A command offered while BUSY = 1 is held (R22). -/
theorem exec_busy {s : State} (h : s.busy = true) (i : Instr) : exec i s = .next (s.hold (encode i)) := by
  cases i <;>
    simp [exec, execNop, execBegin, execSetWindow, execSetPower, execSetContrast, execSetInverted, execSetPixel,
      execGetPixel, execClear, execFlush, execClose, whenDriven, whenOpen, whenIdle_busy h]

end Sys2Proof.Machine
end

