-- ==== Sys2Proof/Laws/Step.lean ====
section
/-! SUPPORT. What a step is: for a busy block the next event, and then, for a reply, its delivery. -/

namespace Sys2Proof.Machine

variable {s : State}

/-- A busy block accepts nothing: its step is the next event. -/
theorem step_busy (h : s.busy = true) : step s = nextEvent s := by
  simp only [step, runStep, h, if_true]
  split <;> rfl

/-- A reply to a busy block is delivered. -/
theorem step_reply {run : Running} (h : s.seq = some run) {r : Reply} {es : List Event} (he : s.env = .reply r :: es) :
    step s = .next (deliver r { s with env := es }) := by
  rw [step_busy (by simp [State.busy, h]), nextEvent, he]
  rfl

end Sys2Proof.Machine
end

