-- ==== Sys2Proof/Tests/Slice0.lean ====
section
/-! SUPPORT. Tests of the model. Every expected value is taken from a worked example or a vector of the spec
(30_encoding.md R96, 40 to 43, 95_test_vectors.md), named in the comment before the test; the names
test_witness_<Obligation> show that the hypotheses of a statement can be met together. -/

namespace Sys2Proof.Tests

open Sys2Proof Sys2Proof.Machine

/-! ### Small machines -/

/-- The parameters of 95_test_vectors.md: WIDTH 4, HEIGHT 16, MAX_XFER 3, CLKDIV 0x80, the CMDTAB defaults. -/
def cfg4x16 : Config := ⟨4, 16, 3, 0, 0x80, CmdTab.ssd1306, 0x1000⟩

/-- The same block with HEIGHT 12: rows 12 to 15 are padding. -/
def cfg4x12 : Config := { cfg4x16 with height := 12 }

/-- After reset, FB_RESET all zero. -/
def fresh : State := State.resetTo cfg4x16 (List.replicate 8 0x00)

/-- The start state of section 2.2: ACTIVE, HORIZONTAL, contrast 0x7F, with replies to come. -/
def active (replies : List Reply) : State :=
  { fresh with ctrlState := .active, mode := .horizontal, contrast := 0x7F, env := replies.map .reply }

/-- After CLOSE from ACTIVE. -/
def closed : State := { fresh with ctrlState := .poweredOff, isOpen := false }

/-- A check of the next state; false where the outcome is a stop. -/
def nextIs (o : Host.Outcome State Fault Refusal) (p : State → Bool) : Bool :=
  match o with
  | .next t => p t
  | .fault _ => false
  | .refused _ => false

/-- The framebuffer of the state as its bytes. -/
def fbBytes (s : State) : List Byte := (List.range s.cfg.fbBytes).map s.memRead

/-! ### Well-formedness: an ill-formed term for each check -/

-- R94: "SET_PIXEL 2048, 0, ON" is refused by an assembler.
theorem test_wf_setPixel_x_high : (Instr.setPixel 2048 0 .on).wf = false := by decide
theorem test_wf_setPixel_x_low : (Instr.setPixel (-2049) 0 .on).wf = false := by decide
theorem test_wf_setPixel_y_high : (Instr.setPixel 0 2048 .on).wf = false := by decide
theorem test_wf_setPixel_y_low : (Instr.setPixel 0 (-2049) .on).wf = false := by decide
theorem test_wf_getPixel_x : (Instr.getPixel 2048 0).wf = false := by decide
theorem test_wf_getPixel_y : (Instr.getPixel 0 (-2049)).wf = false := by decide
theorem test_wf_extremes : (Instr.setPixel (-2048) 2047 .on).wf = true := by decide

/-! ### Decoding: words of R96 and of 95_test_vectors.md section 2.1 -/

theorem test_decode_nop : decode 0x00000000 = .legal .nop := by decide
theorem test_decode_begin : decode 0x100006CF = .legal (.begin .page 0xCF true) := by decide
theorem test_decode_begin_vertical : decode 0x10000110 = .legal (.begin .vertical 0x10 false) := by decide
theorem test_decode_setWindow : decode 0x2094C064 = .legal (.setWindow 0x25 0x30 3 4) := by decide
theorem test_decode_setPower : decode 0x30000001 = .legal (.setPower true) := by decide
theorem test_decode_setContrast : decode 0x40000080 = .legal (.setContrast 0x80) := by decide
theorem test_decode_setInverted : decode 0x50000001 = .legal (.setInverted true) := by decide
theorem test_decode_setPixel : decode 0x618007FF = .legal (.setPixel (-2048) 2047 .on) := by decide
theorem test_decode_setPixel_off : decode 0x60000000 = .legal (.setPixel 0 0 .off) := by decide
theorem test_decode_getPixel : decode 0x70FFF000 = .legal (.getPixel (-1) 0) := by decide
theorem test_decode_clear : decode 0x80000000 = .legal .clear := by decide
theorem test_decode_flush : decode 0x90000000 = .legal .flush := by decide
theorem test_decode_close : decode 0xA0000000 = .legal .close := by decide
-- The illegal words of section 2.1.
theorem test_decode_illegal :
    [0x00000001, 0x10000300, 0x10000800, 0x24000000, 0x3FFFFFFE, 0x40000100, 0x63000000, 0x71000000, 0x80000001,
      0xB0000000, 0xC0000000, 0xFFFFFFFF].all (fun w => decide (legalOf w = none)) = true := by decide
theorem test_encode : encode (.setWindow 1 2 1 1) = 0x20040821 ∧ encode (.begin .page 0xCF true) = 0x100006CF ∧
    encode (.setPixel (-1) 0 .on) = 0x61FFF000 ∧ encode (.setPixel 3 15 .invert) = 0x6200300F := by decide
theorem test_decodeTableWord : decodeTableWord 32 0x20040821 = some (.setWindow 1 2 1 1) ∧
    decodeTableWord 32 0x24000000 = none := by decide

/-! ### Registers: section 2.6, reset state read as registers -/

theorem test_reset_registers : fresh.statusWord = 0x00000008 ∧ fresh.ctrlWord = 0x00000200 ∧
    fresh.window.toWord = 0x00000C01 ∧ dimWord cfg4x16 = 0x00021004 := by decide
theorem test_reset_registers_128x64 : dimWord ⟨128, 64, 16, 0, 0x80, CmdTab.ssd1306, 0⟩ = 0x00084080 ∧
    (State.resetTo ⟨128, 64, 16, 0, 0x80, CmdTab.ssd1306, 0⟩ []).window.toWord = 0x0001FC07 ∧
    dimWord cfg4x12 = 0x00020C04 := by decide

/-! ### Driver commands: section 2.2 -/

-- D-1, D-2
theorem test_setContrast_ok : nextIs (exec (.setContrast 0x80) (active [.ok])) (fun t =>
    t.trace == [.cmdSeq [0x81, 0x80]] && t.contrast == 0x80 && t.code == .ok) = true := by decide
theorem test_setContrast_err : nextIs (exec (.setContrast 0x80) (active [.err])) (fun t =>
    t.trace == [.cmdSeq [0x81, 0x80]] && t.contrast == 0x7F && t.code == .protocolError &&
      t.cause == .transportError) = true := by decide
-- D-4, D-6
theorem test_setInverted_ok : nextIs (exec (.setInverted true) (active [.ok])) (fun t =>
    t.trace == [.cmd 0xA7] && t.inverted && t.code == .ok) = true := by decide
theorem test_setInverted_err : nextIs (exec (.setInverted true) (active [.err])) (fun t =>
    t.trace == [.cmd 0xA7] && !t.inverted && t.code == .protocolError) = true := by decide
-- D-7, D-9 with a transport that would answer ERR (E-4)
theorem test_setWindow_ok : nextIs (exec (.setWindow 1 2 1 1) (active [.ok])) (fun t =>
    t.trace == [.cmdSeq [0x21, 0x01, 0x02, 0x22, 0x01, 0x01]] && t.window.toWord == 0x00040821) = true := by decide
theorem test_setWindow_range : nextIs (exec (.setWindow 0 4 0 0) (active [.err])) (fun t =>
    t.trace == [] && t.code == .outOfRange && t.window == fresh.window) = true := by decide
-- D-13: PAGE mode, 128 x 64.
theorem test_emitWindow_page : emitWindow CmdTab.ssd1306 .page ⟨0x25, 0x30, 3, 4⟩ = .cmdSeq [0xB3, 0x05, 0x12] := by
  decide
-- SET_POWER's table (R122): OFF from ACTIVE, ON in UNINITIALIZED.
theorem test_setPower_off : nextIs (exec (.setPower false) (active [.ok])) (fun t =>
    t.trace == [.cmd 0xAE] && t.ctrlState == .poweredOff && t.code == .ok) = true := by decide
theorem test_setPower_uninitialized : nextIs (exec (.setPower true) fresh) (fun t =>
    t.trace == [] && t.ctrlState == .uninitialized && t.code == .ok) = true := by decide

/-! ### Framebuffer commands: section 2.3 -/

-- F-2, F-6
theorem test_setPixel_on : nextIs (exec (.setPixel 1 9 .on) fresh) (fun t =>
    fbBytes t == [0, 0, 0, 0, 0, 0x02, 0, 0] && t.fb == [(5, 0x02)]) = true := by decide
theorem test_setPixel_row8 : nextIs (exec (.setPixel 2 8 .on) fresh) (fun t =>
    fbBytes t == [0, 0, 0, 0, 0, 0, 0x01, 0]) = true := by decide
-- F-10 and F-17
theorem test_setPixel_off : nextIs (exec (.setPixel 1 9 .off) (State.resetTo cfg4x16 (List.replicate 8 0xFF)))
    (fun t => fbBytes t == [0xFF, 0xFF, 0xFF, 0xFF, 0xFF, 0xFD, 0xFF, 0xFF]) = true := by decide
theorem test_setPixel_padding : nextIs (exec (.setPixel 0 12 .on) (State.resetTo cfg4x12 (List.replicate 8 0)))
    (fun t => t.fb == [] && t.code == .ok) = true := by decide
-- F-12, F-13
theorem test_getPixel_on : nextIs (exec (.getPixel 1 9) { fresh with fb := [(5, 0x02)] }) (fun t =>
    t.statusWord == 0x00010008) = true := by decide
theorem test_getPixel_off : nextIs (exec (.getPixel 1 8) { fresh with fb := [(5, 0x02)], pixel := true }) (fun t =>
    !t.pixel) = true := by decide
-- F-11: the canonical form lists the zeros, which differ from the draw.
theorem test_clear : nextIs (exec .clear (State.resetTo cfg4x16 (List.replicate 8 0xFF))) (fun t =>
    fbBytes t == List.replicate 8 0 && Memory.wf t.fbReset 8 t.fb) = true := by decide

/-! ### Session commands: section 2.5, X-1 to X-6, L-1 to L-9 -/

theorem test_nop_closed : nextIs (exec .nop closed) (fun t => t.statusWord == 0x00000001) = true := by decide
-- R193's example: the eight transactions, and CTRL.
theorem test_begin_ok : nextIs (exec (.begin .horizontal 0x7F false)
    { fresh with env := (.elapsed :: List.replicate 7 Reply.ok).map .reply }) (fun t =>
    t.trace == [.reset, .cmd 0xAE, .cmdSeq [0xD5, 0x80], .cmdSeq [0xA8, 0x0F], .cmdSeq [0x8D, 0x14],
      .cmdSeq [0x20, 0x00], .cmdSeq [0x81, 0x7F], .cmd 0xAF] && t.ctrlWord == 0x0000007F &&
      t.statusWord == 0x0000000E && t.window.toWord == 0x00000C01) = true := by decide
-- The table of section 2.5, k = 3.
theorem test_begin_fails : nextIs (exec (.begin .page 0xCF true)
    { fresh with env := [.reply .elapsed, .reply .ok, .reply .ok, .reply .err] }) (fun t =>
    t.trace == [.reset, .cmd 0xAE, .cmdSeq [0xD5, 0x80], .cmdSeq [0xA8, 0x0F]] &&
      t.code == .initializationError && t.cause == .protocolError && t.ctrlState == .uninitialized) = true := by
  decide
-- L-1 and L-9
theorem test_flush_horizontal : nextIs (exec .flush
    { active [.ok, .ok, .ok, .ok] with fb := [(0, 0x01), (5, 0x02)] }) (fun t =>
    t.trace == [.cmdSeq [0x21, 0x00, 0x03, 0x22, 0x00, 0x01], .data [0x01, 0x00, 0x00], .data [0x00, 0x00, 0x02],
      .data [0x00, 0x00]] && t.window.toWord == 0x00000C01 && t.code == .ok) = true := by decide
theorem test_flush_err : nextIs (exec .flush
    { active [.ok, .ok, .err] with fb := [(0, 0x01), (5, 0x02)] }) (fun t =>
    t.trace == [.cmdSeq [0x21, 0x00, 0x03, 0x22, 0x00, 0x01], .data [0x01, 0x00, 0x00],
      .data [0x00, 0x00, 0x02]] && t.code == .protocolError && t.cause == .transportError) = true := by decide
-- L-2 and L-3: the plans of VERTICAL and PAGE modes.
theorem test_flushItems_vertical : ({ active [] with mode := .vertical, fb := [(0, 0x01), (5, 0x02)] }).flushItems =
    [.tx (.cmdSeq [0x21, 0x00, 0x03, 0x22, 0x00, 0x00]), .tx (.data [0x01, 0x00, 0x00]), .tx (.data [0x00]),
      .tx (.cmdSeq [0x21, 0x00, 0x03, 0x22, 0x01, 0x01]), .tx (.data [0x00, 0x02, 0x00]), .tx (.data [0x00])] := by
  decide
theorem test_flushItems_page : ({ active [] with mode := .page, fb := [(0, 0x01), (5, 0x02)] }).flushItems =
    [.tx (.cmdSeq [0xB0, 0x00, 0x10]), .tx (.data [0x01, 0x00, 0x00]), .tx (.data [0x00]),
      .tx (.cmdSeq [0xB1, 0x00, 0x10]), .tx (.data [0x00, 0x02, 0x00]), .tx (.data [0x00])] := by decide
-- X-2 and X-3
theorem test_close_err : nextIs (exec .close (active [.err])) (fun t =>
    t.trace == [.cmd 0xAE] && t.statusWord == 0x00002006) = true := by decide
theorem test_close_uninitialized : nextIs (exec .close fresh) (fun t =>
    t.trace == [] && t.statusWord == 0x00003000) = true := by decide
-- X-4
theorem test_close_closed : nextIs (exec .close closed) (fun t => t.statusWord == 0x00000301) = true := by decide

/-! ### The command cycle: sections 2.6 and R22, R24 -/

-- E-1: illegal before closed.
theorem test_illegal_before_closed : nextIs (step { closed with port := [0x63000000] }) (fun t =>
    t.code == .illegalCommand && t.cause == .ok) = true := by decide
-- A CMD write through the window, an unanswered call, a read while BUSY = 1 (R24), a held write (R22).
theorem test_write_then_wait : nextIs (step { active [] with env := [.write 0x1000 4 0x40000080, .read 0x1004 4] })
    (fun t => t.busy && t.contrast == 0x7F && t.trace == [.cmdSeq [0x81, 0x80]]) = true := by decide
theorem test_read_while_busy : nextIs (step { active [] with
    seq := some ⟨.setContrast 0x80, 0, .busCall⟩, env := [.read 0x1004 4] })
    (fun t => t.readData == 0x0000001E) = true := by decide
theorem test_held_write : nextIs (step { active [] with
    seq := some ⟨.setContrast 0x80, 0, .busCall⟩, env := [.write 0x1000 4 0x00000000] })
    (fun t => t.busy && t.port == [0x00000000]) = true := by decide
theorem test_late_answer : nextIs (step { active [] with
    seq := some ⟨.setContrast 0x80, 0, .busCall⟩, env := [.reply .ok], port := [0x00000000] })
    (fun t => !t.busy && t.contrast == 0x80 && t.port == [0x00000000]) = true := by decide
theorem test_withFetchWord : nextIs (step (fresh.withFetchWord 32 0x30000001)) (fun t =>
    t.code == .ok && t.ctrlState == .uninitialized && t.port == []) = true := by decide
theorem test_withFetchWord_reset : ∃ t, step (State.reset.withFetchWord 32 0x61001009) = .next t := ⟨_, rfl⟩

/-! ### Rendering macros: section 2.4 -/

-- M-4, M-3, M-6
theorem test_lineSet : lineSet 0 0 2 1 = [(0, 0), (1, 0), (2, 1)] ∧
    lineSet 0 0 2 5 = [(0, 0), (0, 1), (1, 2), (1, 3), (2, 4), (2, 5)] ∧
    lineSet 0 1 3 0 = [(0, 1), (1, 1), (2, 0), (3, 0)] := by decide
-- M-9 and M-11, as words in the canonical order.
theorem test_fillRect_clipped : ((Macro.fillRect (-1) (-1) 3 3 .on).expand cfg4x16).map encode =
    [0x61000000, 0x61001000, 0x61000001, 0x61001001] := by decide
theorem test_drawRect_invert : ((Macro.drawRect 0 0 3 3 .invert).expand cfg4x16).map encode =
    [0x62000000, 0x62001000, 0x62002000, 0x62000001, 0x62002001, 0x62000002, 0x62001002, 0x62002002] := by decide
-- M-12 and M-13
theorem test_drawCircle : ((Macro.drawCircle 1 1 1 .on).expand cfg4x16).map encode =
    [0x61001000, 0x61000001, 0x61002001, 0x61001002] := by decide
theorem test_fillCircle : ((Macro.fillCircle 0 0 1 .on).expand cfg4x16).map encode =
    [0x61000000, 0x61001000, 0x61000001] := by decide
-- O(1), O(2), O(3): 4, 12 and 16 offsets; fills of 5, 21 and 37 (R166, R167).
theorem test_circle_counts : (circleOffsets 1).dedup.length = 4 ∧ (circleOffsets 2).dedup.length = 12 ∧
    (circleOffsets 3).dedup.length = 16 ∧ (fillCircleSet 0 0 2).dedup.length = 21 ∧
    (fillCircleSet 0 0 3).dedup.length = 37 := by decide
-- M-16, M-17, M-20
theorem test_roundRect_counts : (roundRectSet 0 0 8 6 2).dedup.length = 20 ∧
    (roundRectSet 0 0 4 4 10).dedup.length = 8 ∧ (roundRectSet 0 0 6 6 3).dedup.length = 12 ∧
    (roundRectSet 0 0 5 3 0).dedup.length = 12 ∧ (roundRectSet 0 0 1 1 1).dedup.length = 1 := by decide
-- M-21, M-22, M-23, M-24
theorem test_triangle_counts : (drawTriangleSet 0 0 6 0 3 4).dedup.length = 14 ∧
    (fillTriangleSet 0 0 6 0 3 4).length = 21 ∧ (drawTriangleSet 0 0 4 2 2 4).dedup.length = 10 ∧
    (fillTriangleSet 0 0 4 2 2 4).length = 14 := by decide
-- M-26, M-27, M-28
theorem test_blitGlyph : ((Macro.blitGlyph 0 0 ⟨2, 1, [[true, false]]⟩ 2 .on (some .off)).expand cfg4x16).map encode =
    [0x61000000, 0x61001000, 0x60002000, 0x60003000, 0x61000001, 0x61001001, 0x60002001, 0x60003001] := by decide
theorem test_blitGlyph_transparent : ((Macro.blitGlyph 0 0 ⟨2, 1, [[true, false]]⟩ 2 .on none).expand cfg4x16).length
    = 4 ∧ (Macro.blitGlyph 0 0 ⟨2, 1, [[true, false]]⟩ 0 .on none).points = [] := by decide
-- M-29, M-30
theorem test_blitBitmap : ((Macro.blitBitmap 1 1 [0xA0] 3 1 .on).expand cfg4x16).map encode =
    [0x61001001, 0x61003001] ∧
    ((Macro.blitBitmap 3 0 [0xC0] 2 1 .on).expand cfg4x16).map encode = [0x61003000] := by decide
-- R174, R95 and R94
theorem test_draw : draw (.filledRect 1 2 3 4 .on) = .fillRect 1 2 3 4 .on ∧
    draw (.rawBitmap 0 0 [] 1 1 .on) = .blitBitmap 0 0 [] 1 1 .on := by decide
theorem test_assemble : (assemble .powerOn).map encode = some 0x30000001 ∧
    (assemble .invertOff).map encode = some 0x50000000 ∧
    (assemble (.begin .page 0xCF (some true))).map encode = some 0x100006CF ∧
    (assemble (.setWindow 0 200 0 0)).isSome = true ∧ assemble (.setContrast 256) = none ∧
    assemble (.setPixel 2048 0 1) = none ∧ assemble (.setPixel 0 0 3) = none := by decide

/-! ### Witnesses: the hypotheses of each statement, met together; one for each clause, at a boundary -/

/-- A block busy with SET_CONTRAST, its call outstanding. -/
def busyState (es : List Event) (held : List Word) : State :=
  { active [] with seq := some ⟨.setContrast 0x80, 0, .busCall⟩, env := es, port := held }

theorem test_witness_DecodeOfEncode : (Instr.setPixel (-2048) 2047 .invert).wf = true ∧
    (Instr.getPixel 2047 (-2048)).wf = true ∧ (Instr.setWindow 255 255 31 31).wf = true := by decide

theorem test_witness_EncodeOfDecode : decode 0x618007FF = .legal (.setPixel (-2048) 2047 .on) ∧
    decode 0x23FFFFFF = .legal (.setWindow 255 255 31 31) := by decide

theorem test_witness_IllegalWordsCompleteWithIllegalCommand :
    (decode 0x08000000 = .illegal .reservedBits ∧ closed.seq = none ∧ closed.port = [] ∧
      { closed with env := [.write 0x1000 4 0x08000000] }.env = .write closed.cfg.base 4 0x08000000 :: []) ∧
    (decode 0xB0000000 = .illegal .reservedOpcode ∧ fresh.seq = none ∧ fresh.port = [] ∧
      { fresh with env := [.write 0x1000 4 0xB0000000] }.env = .write fresh.cfg.base 4 0xB0000000 :: []) := by decide

theorem test_witness_AssemblerRefusals : assemble (.begin .page 255 none) = some (.begin .page 255 false) ∧
    assemble (.begin .page 256 none) = none ∧ assemble (.setContrast 0) = some (.setContrast 0) ∧
    assemble (.setWindow 255 0 31 0) = some (.setWindow 255 0 31 0) ∧ assemble (.setWindow 0 0 32 0) = none ∧
    assemble (.setPixel (-2048) 2047 2) = some (.setPixel (-2048) 2047 .invert) ∧ assemble (.setPixel 0 0 3) = none ∧
    assemble (.getPixel 2047 (-2048)) = some (.getPixel 2047 (-2048)) ∧ assemble (.getPixel 0 2048) = none := by
  decide

theorem test_witness_StepRunsTheDecodedInstruction :
    (fresh.seq = none ∧ { fresh with port := [0xA0000000] }.port = 0xA0000000 :: [] ∧
      decode 0xA0000000 = .legal .close) ∧
    (fresh.seq = none ∧ fresh.port = [] ∧ { fresh with env := [.write 0x1000 4 0x00000000] }.env =
      .write fresh.cfg.base 4 0x00000000 :: [] ∧ decode 0x00000000 = .legal .nop) := by decide

theorem test_witness_HeldCommandsKeepTheirOrder :
    ((busyState [.write 0x1000 4 0xA0000000] [0]).busy = true ∧
      (busyState [.write 0x1000 4 0xA0000000] [0]).env = .write fresh.cfg.base 4 0xA0000000 :: []) ∧
    (∃ t, step (busyState [.reply .err] [0, 1]) = .next t) ∧
    (fresh.seq = none ∧ { fresh with port := [0, 1] }.port = 0 :: [1]) ∧
    (busyState [] []).busy = true := ⟨by decide, ⟨_, rfl⟩, by decide, by decide⟩

theorem test_witness_UnansweredCallHangs :
    (busyState [.read 0x1004 4, .write 0x1000 4 0xA0000000] []).busy = true ∧
    (∀ e ∈ (busyState [.read 0x1004 4, .write 0x1000 4 0xA0000000] []).env,
      (∀ r, e ≠ .reply r) ∧ (∀ c d, e ≠ .reset c d)) ∧
    ∃ t, runSteps 5 (busyState [.read 0x1004 4, .write 0x1000 4 0xA0000000] []) = .next t :=
  ⟨by decide, by simp [busyState], ⟨_, rfl⟩⟩

theorem test_witness_PixelAddresses : inBounds cfg4x16 3 15 = true ∧ inBounds cfg4x16 0 0 = true ∧
    inBounds cfg4x12 3 11 = true ∧ inBounds cfg4x12 3 12 = false ∧ inBounds cfg4x16 4 0 = false ∧
    inBounds cfg4x16 (-1) 0 = false := by decide

theorem test_witness_SetPixelWritesOneBit : fresh.ready ∧
    Memory.wf fresh.fbReset fresh.cfg.fbBytes fresh.fb = true ∧
    (State.ready { fresh with ctrlState := .poweredOff, fb := [(7, 0x80)] } ∧
      Memory.wf fresh.fbReset fresh.cfg.fbBytes [(7, 0x80)] = true) := by decide

theorem test_witness_GetPixelReadsTheBit : fresh.ready ∧ (active []).ready := by decide

theorem test_witness_ClearZeroesTheFramebuffer : fresh.ready ∧
    Memory.wf fresh.fbReset fresh.cfg.fbBytes fresh.fb = true := by decide

theorem test_witness_PixelRoundTrips : fresh.ready ∧
    Memory.wf fresh.fbReset fresh.cfg.fbBytes fresh.fb = true ∧ inBounds fresh.cfg 3 15 = true ∧
    ((3, 14) : Int × Int) ≠ (3, 15) := by decide

theorem test_witness_PageBoundaryRows : (3 < fresh.cfg.width ∧ 9 ≤ fresh.cfg.height) ∧
    (fresh.ready ∧ Memory.wf fresh.fbReset fresh.cfg.fbBytes fresh.fb = true ∧ fresh.cfg.width = 4 ∧
      ∀ a, fresh.memRead a = 0) := by
  refine ⟨by decide, by decide, by decide, by decide, fun a => ?_⟩
  show (List.replicate 8 (0 : Byte)).getD a 0 = 0
  rw [List.getD_eq_getElem?_getD, List.getElem?_replicate]
  split <;> rfl

theorem test_witness_PaddingBitsOnlyCleared :
    let s := State.resetTo cfg4x12 (List.replicate 8 0xFF)
    7 < (List.replicate 8 (0xFF : Byte)).length ∧ s.ready ∧ Memory.wf s.fbReset s.cfg.fbBytes s.fb = true ∧ 3 < s.cfg.width ∧ 1 ≤ s.cfg.height ∧ 4 < 8 ∧
      s.cfg.height ≤ 8 * (s.cfg.pages - 1) + 4 := by decide

theorem test_witness_PixelCommandFrame :
    Memory.wf fresh.fbReset fresh.cfg.fbBytes fresh.fb = true ∧
    (∃ t, exec .nop fresh = .next t) ∧ (∃ t, exec (.setPixel 3 15 .on) fresh = .next t) ∧
    (∃ t, exec (.setPixel 4 0 .on) (busyState [] []) = .next t) ∧ (∃ t, exec (.getPixel 0 0) closed = .next t) ∧
    (∃ t, exec .clear fresh = .next t) :=
  ⟨by decide, ⟨_, rfl⟩, ⟨_, rfl⟩, ⟨_, rfl⟩, ⟨_, rfl⟩, ⟨_, rfl⟩⟩

theorem test_witness_SetWindowFollowsItsRule : (active []).ready ∧ (active []).isOn = true ∧
    inWindow cfg4x16 ⟨0, 4, 0, 0⟩ = false ∧ inWindow cfg4x16 ⟨0, 0, 0, 2⟩ = false ∧
    inWindow cfg4x16 ⟨2, 1, 0, 0⟩ = false ∧ inWindow cfg4x16 ⟨3, 3, 1, 1⟩ = true ∧
    (active [.ok]).env = .reply .ok :: [] ∧ (active [.err]).env = .reply .err :: [] ∧
    State.isOn { fresh with ctrlState := .sleeping } = true ∧ noReply (active []).env = true := by decide

theorem test_witness_SetPowerFollowsItsTable : fresh.ready ∧ fresh.ctrlState = .uninitialized ∧
    State.ready { fresh with ctrlState := .poweredOff } ∧ (active [.ok]).ready ∧
    (active [.ok]).ctrlState ≠ .uninitialized ∧ (active [.ok]).env = .reply .ok :: [] ∧
    (active [.err]).env = .reply .err :: [] ∧ (active [.ok]).ctrlState = .active ∧
    ((active []).ready ∧ (active []).ctrlState = .active ∧ noReply (active []).env = true) := by decide

theorem test_witness_SetContrastFollowsItsRule : (fresh.ready ∧ fresh.isOn = false) ∧
    ((active [.ok]).ready ∧ (active [.ok]).isOn = true ∧ (active [.ok]).env = .reply .ok :: []) ∧
    ((active [.err]).ready ∧ (active [.err]).isOn = true ∧ (active [.err]).env = .reply .err :: []) ∧
    ((active []).ready ∧ (active []).isOn = true ∧ noReply (active []).env = true) := by decide

theorem test_witness_SetInvertedFollowsItsRule : (fresh.ready ∧ fresh.isOn = false) ∧
    ((active [.ok, .ok]).ready ∧ (active [.ok, .ok]).isOn = true ∧
      (active [.ok, .ok]).env = .reply .ok :: [.reply .ok]) ∧
    ((active [.err]).ready ∧ (active [.err]).isOn = true ∧ (active [.err]).env = .reply .err :: []) ∧
    ((active []).ready ∧ (active []).isOn = true ∧ noReply (active []).env = true) := by decide

theorem test_witness_DriverGateByState : isDriver .flush = true ∧ fresh.ready ∧ fresh.ctrlState = .uninitialized ∧
    Instr.flush ≠ .setPower true ∧ isDriver (.setPower true) = true ∧
    ((active [.ok]).ready ∧ (active [.ok]).ctrlState = .active) := by decide

theorem test_witness_DriverGateByState_passes : ∃ t, exec (.setInverted true) (active [.ok]) = .next t ∧
    t.seq = none := ⟨_, rfl, by decide⟩

theorem test_witness_DriverCommandFrame : isDriver (.setWindow 0 4 0 0) = true ∧
    (Instr.setWindow 0 4 0 0) ≠ .flush ∧ (∃ t, exec (.setWindow 0 4 0 0) (active []) = .next t) ∧
    (∃ t, exec (.setPower false) (active [.ok]) = .next t) ∧ (∃ t, exec (.setContrast 0) (busyState [] []) = .next t) ∧
    (∃ t, exec (.setInverted true) closed = .next t) :=
  ⟨rfl, by decide, ⟨_, rfl⟩, ⟨_, rfl⟩, ⟨_, rfl⟩, ⟨_, rfl⟩⟩

/-- The state of section 2.2, waiting at position `k` of a command, with one reply to come. -/
def waiting (i : Instr) (k : Nat) (p : Pending) (r : Reply) : State := { active [r] with seq := some ⟨i, k, p⟩ }

theorem test_witness_TransportErrorStopsTheCommand :
    (isDriver .flush = true ∧ (waiting .flush 3 .busCall .err).env = .reply .err :: [] ∧
      (waiting .flush 3 .busCall .err).seq = some ⟨.flush, 3, .busCall⟩) ∧
    (waiting (.begin .page 0 true) 8 .busCall .err).seq = some ⟨.begin .page 0 true, 8, .busCall⟩ ∧
    (waiting .close 0 .busCall .err).seq = some ⟨.close, 0, .busCall⟩ := by decide

theorem test_witness_LateAnswersMoveTheCommandOn :
    ((waiting .flush 2 .busCall .ok).env = .reply .ok :: [] ∧
      (waiting .flush 2 .busCall .ok).seq = some ⟨.flush, 2, .busCall⟩ ∧
      (items (waiting .flush 2 .busCall .ok) .flush)[3]? = some (.tx (.data [0, 0]))) ∧
    ((waiting .flush 3 .busCall .ok).seq = some ⟨.flush, 3, .busCall⟩ ∧
      (waiting .flush 3 .busCall .ok).flushItems.length = 3 + 1) ∧
    (waiting (.begin .page 0 true) 8 .busCall .ok).seq = some ⟨.begin .page 0 true, 8, .busCall⟩ ∧
    ((waiting (.begin .page 0 true) 1 .powerupDelay .elapsed).env = .reply .elapsed :: [] ∧
      (waiting (.begin .page 0 true) 1 .powerupDelay .elapsed).seq = some ⟨.begin .page 0 true, 1, .powerupDelay⟩) ∧
    ((active [.ok]).seq = none ∧ (active [.ok]).port = []) ∧
    (waiting .close 0 .busCall .elapsed).seq = some ⟨.close, 0, .busCall⟩ := by decide

theorem test_witness_LateAnswersMoveTheCommandOn_atHand : (active []).seq = none ∧ noReply [.read 0x1004 4] = true ∧
    ∃ t, exec .flush { active [] with env := [Reply.ok].map .reply ++ [.read 0x1004 4] } = .next t ∧
      t.busy = true := ⟨rfl, rfl, _, rfl, by decide⟩

-- R114: after the delay's end, step 1 (DISPLAY_OFF) is issued; R195's example: the third DATA block after the second.
theorem test_late_elapsed : nextIs (step (waiting (.begin .page 0 true) 1 .powerupDelay .elapsed)) (fun t =>
    t.trace == [.cmd 0xAE] && t.busy) = true := by decide
theorem test_late_flush : nextIs (step { waiting .flush 2 .busCall .ok with fb := [(0, 0x01), (5, 0x02)] }) (fun t =>
    t.trace == [.data [0x00, 0x00]] && t.busy) = true := by decide

theorem test_witness_ControllerStateChanges :
    (busyState [] []).inv = true ∧
    (∃ s t : State, s.inv = true ∧ s.resets = false ∧ step s = .next t ∧ t.ctrlState ≠ s.ctrlState ∧
      s.current = some (.setPower false)) :=
  ⟨by decide, (active [.ok]).offer 0x30000000, _, by decide, by decide, rfl, by decide, by decide⟩

theorem test_witness_NopWritesTheResultOnly : closed.seq = none ∧ closed.isOpen = false := by decide

theorem test_witness_BeginFollowsItsRule : fresh.ready ∧
    { fresh with env := Event.reply .elapsed :: (List.replicate 7 (Event.reply .ok) ++ []) }.env =
      Event.reply .elapsed :: (List.replicate 7 (Event.reply .ok) ++ []) ∧
    (6 < 7 ∧ { fresh with env := Event.reply .elapsed :: (List.replicate 6 (Event.reply .ok) ++ Event.reply .err :: []) }.env =
      Event.reply .elapsed :: (List.replicate 6 (Event.reply .ok) ++ Event.reply .err :: [])) ∧
    (noReply fresh.env = true ∧ noReply [.read 0x1004 4] = true) := by decide

theorem test_witness_OnlyBeginLeavesUninitialized : fresh.inv = true ∧ fresh.ctrlState = .uninitialized ∧
    (∃ t, step fresh = .next t) ∧
    nextIs (step { fresh with port := [0x1000007F], env := .reply .elapsed :: List.replicate 7 (.reply .ok) })
      (fun t => t.ctrlState == .active) = true := ⟨by decide, by decide, ⟨_, rfl⟩, by decide⟩

theorem test_witness_PushPagesBlocks : 1 ≤ 3 ∧ 1 ≤ ([1] : List Byte).length ∧
    chunks 3 [1, 2, 3, 4, 5, 6, 7, 8] = [[1, 2, 3], [4, 5, 6], [7, 8]] ∧ chunks 8 [1, 2] = [[1, 2]] := by decide

theorem test_witness_FlushPlanCountsAndData : cfg4x16.wf = true ∧ cfg4x12.wf = true ∧
    Config.wf ⟨1, 1, 1, 0, 0, CmdTab.ssd1306, 0⟩ = true ∧ Config.wf ⟨128, 64, 1, 0, 0, CmdTab.ssd1306, 0⟩ = true := by
  decide

theorem test_witness_FlushFollowsItsPlan :
    (active [.ok, .ok, .ok, .ok]).ready ∧ (active [.ok, .ok, .ok, .ok]).isOn = true ∧
    (active [.ok, .ok, .ok, .ok]).cfg.wf = true ∧ (active []).flushItems.length = 4 ∧
    (active [.ok, .ok, .ok, .ok]).env = List.replicate 4 (.reply .ok) ++ [] ∧
    (3 < 4 ∧ (active [.ok, .ok, .ok, .err]).env = List.replicate 3 (.reply .ok) ++ .reply .err :: []) ∧
    (0 < 4 ∧ noReply [] = true ∧ (active []).env = List.replicate 0 (.reply .ok) ++ []) := by decide

theorem test_witness_RetriedFlushSendsTheSamePlan : (∃ t, exec .flush (active [.ok, .err]) = .next t) ∧
    (∃ t, exec .flush closed = .next t) := ⟨⟨_, rfl⟩, ⟨_, rfl⟩⟩

theorem test_witness_CloseFollowsItsRule :
    ((active [.ok]).ready ∧ (active [.ok]).isOn = true ∧ (active [.ok]).env = .reply .ok :: []) ∧
    ((active [.err]).ready ∧ (active [.err]).isOn = true ∧ (active [.err]).env = .reply .err :: []) ∧
    ((active []).ready ∧ (active []).isOn = true ∧ noReply (active []).env = true) ∧
    (fresh.ready ∧ fresh.isOn = false) := by decide

theorem test_witness_ClosedSessionRefusesCommands :
    (closed.seq = none ∧ closed.isOpen = false ∧ Instr.begin .page 0 false ≠ .nop) ∧
    (closed.seq = none ∧ closed.port = [] ∧ closed.isOpen = false ∧ 28 < 32 ∧ 28 % 4 = 0 ∧
      { closed with env := [.read 0x101C 4] }.env = .read (closed.cfg.base + 28) 4 :: []) := by decide

theorem test_witness_SessionCommandFrame : (∃ t, exec (.begin .page 0 true) (active [.elapsed, .err]) = .next t) ∧
    (∃ t, exec .flush (active [.ok]) = .next t) ∧ (∃ t, exec .close (busyState [] []) = .next t) :=
  ⟨⟨_, rfl⟩, ⟨_, rfl⟩, ⟨_, rfl⟩⟩

theorem test_witness_StepKeepsTheInvariant : (active [.ok, .ok]).inv = true ∧
    (busyState [.reply .err] [0xA0000000]).inv = true ∧
    (∃ t, step (busyState [.reply .err] [0xA0000000]) = .next t) := ⟨by decide, by decide, ⟨_, rfl⟩⟩

theorem test_witness_ResetMeetsTheInvariant : cfg4x16.wf = true ∧
    (List.replicate 8 (0xFF : Byte)).length = cfg4x16.fbBytes := by decide

theorem test_witness_ResetValues : fresh = State.resetTo cfg4x16 (List.replicate 8 0x00) := rfl

theorem test_witness_ResetAbandonsTheRunningCommand :
    (busyState [.reset cfg4x12 (List.replicate 8 1)] [0]).busy = true ∧
    (busyState [.reset cfg4x12 (List.replicate 8 1)] [0]).env = .reset cfg4x12 (List.replicate 8 1) :: [] ∧
    cfg4x12.wf = true ∧ (List.replicate 8 (1 : Byte)).length = cfg4x12.fbBytes ∧ fresh.port = [] := by decide

theorem test_witness_RegisterWindowAccesses :
    ((busyState [.read 0x101C 4] []).busy = true ∧ 28 < 32 ∧ 28 % 4 = 0 ∧
      (busyState [.read 0x101C 4] []).env = .read (fresh.cfg.base + 28) 4 :: []) ∧
    (fresh.port = [] ∧ 4 ≠ 0 ∧ { fresh with env := [.write 0x1004 4 7] }.env =
      .write (fresh.cfg.base + 4) 4 7 :: []) := by decide

-- R25 and R220: POWERED_OFF is 1, SLEEPING 3; CODE 5 with CAUSE 2 (R221).
theorem test_status_numbers : ({ fresh with ctrlState := .poweredOff }).statusWord = 0x00000009 ∧
    ({ fresh with ctrlState := .sleeping }).statusWord = 0x0000000B ∧
    ({ fresh with code := .initializationError, cause := .protocolError }).statusWord = 0x00002508 := by decide

theorem test_witness_RegisterFields : fresh.cfg.wf = true ∧
    Config.wf ⟨128, 64, 1, 0, 0, CmdTab.ssd1306, 0⟩ = true := by decide

theorem test_witness_HostAccessStops : fresh.port = [] ∧
    ({ fresh with env := [.read 0x101F 1] }.env = .read 0x101F 1 :: [] ∧ fresh.cfg.base ≤ 0x101F ∧
      0x101F < fresh.cfg.base + 32 ∧ 1 ≠ 4) ∧
    ({ fresh with env := [.write 0x1001 4 0] }.env = .write 0x1001 4 0 :: [] ∧ fresh.cfg.base ≤ 0x1001 ∧
      0x1001 < fresh.cfg.base + 32 ∧ (0x1001 - fresh.cfg.base) % 4 ≠ 0) ∧
    (0xFFF < fresh.cfg.base ∧ fresh.cfg.base + 32 ≤ 0x1020) := by decide

theorem test_witness_BusyStepsHideResults : ∃ t, step ((active []).offer 0x90000000) = .next t ∧ t.busy = true :=
  ⟨_, rfl, by decide⟩

theorem test_witness_ResultCodesOfEachCommand :
    ∃ t, ((active [.err]).offer 0x90000000).inv = true ∧ ((active [.err]).offer 0x90000000).resets = false ∧
      ((active [.err]).offer 0x90000000).current = some .flush ∧
      step ((active [.err]).offer 0x90000000) = .next t ∧ t.seq = none ∧ t.code = .protocolError :=
  ⟨_, by decide, by decide, by decide, rfl, by decide, by decide⟩

theorem test_witness_ErrorPriority : closed.seq = none ∧ (closed.isOpen = false ∧ Instr.flush ≠ .nop) ∧
    (fresh.seq = none ∧ fresh.isOpen = true ∧ isDriver .flush = true ∧ fresh.isOn = false) ∧
    ((active [.err]).seq = none ∧ decode 0x20001000 = .legal (.setWindow 0 4 0 0) ∧
      inWindow (active [.err]).cfg ⟨0, 4, 0, 0⟩ = false) := by decide

theorem test_witness_FailuresChangeNothingElse :
    (∃ t, (fresh.offer 0x90000000).resets = false ∧ (fresh.offer 0x90000000).current = some .flush ∧
      step (fresh.offer 0x90000000) = .next t ∧ t.seq = none ∧ t.code = .invalidState) ∧
    (∃ t, ((active [.elapsed, .err]).offer 0x1000007F).current = some (.begin .horizontal 0x7F false) ∧
      step ((active [.elapsed, .err]).offer 0x1000007F) = .next t ∧ t.seq = none ∧
      t.code = .initializationError) :=
  ⟨⟨_, by decide, by decide, rfl, by decide, by decide⟩, ⟨_, by decide, rfl, by decide, by decide⟩⟩

theorem test_witness_TraceOnlyGrows : fresh.resets = false ∧ fresh.current = none ∧ (∃ t, step fresh = .next t) :=
  ⟨by decide, by decide, ⟨_, rfl⟩⟩

theorem test_witness_WritersOfEachField :
    (∃ t, step (fresh.offer 0x61000000) = .next t ∧ (fresh.offer 0x61000000).resets = false ∧
      t.fb ≠ (fresh.offer 0x61000000).fb) ∧
    (∃ t, step ((active [.ok]).offer 0x40000000) = .next t ∧ t.contrast ≠ (active [.ok]).contrast) ∧
    (∃ t, step (fresh.offer 0xA0000000) = .next t ∧ t.isOpen ≠ fresh.isOpen) ∧
    (∃ t, step ({ fresh with fb := [(0, 1)] }.offer 0x70000000) = .next t ∧ t.pixel ≠ fresh.pixel) ∧
    (∃ t, step ((active [.ok]).offer 0x50000001) = .next t ∧ t.inverted ≠ (active [.ok]).inverted) ∧
    (∃ t, step ((active [.ok]).offer 0x20040821) = .next t ∧ t.window ≠ (active [.ok]).window) :=
  ⟨⟨_, rfl, by decide, by decide⟩, ⟨_, rfl, by decide⟩, ⟨_, rfl, by decide⟩, ⟨_, rfl, by decide⟩,
    ⟨_, rfl, by decide⟩, ⟨_, rfl, by decide⟩⟩

theorem test_witness_ExpansionDrawsEachPixelOnce : fresh.ready ∧
    Memory.wf fresh.fbReset fresh.cfg.fbBytes fresh.fb = true ∧ inBounds fresh.cfg 3 15 = true := by decide

theorem test_witness_FillRectSet : ((0 : Int) ≤ 0 ∨ (5 : Int) ≤ 0) ∧ (0 : Int) < 1 ∧
    fillRectSet 0 0 1 1 = [(0, 0)] ∧ fillRectSet 0 0 0 5 = [] := by decide

theorem test_witness_DrawRectSet : (2 : Int) ≤ 2 ∧ drawRectSet 0 0 2 2 = [(0, 0), (1, 0), (0, 1), (1, 1)] := by decide

theorem test_witness_CircleFillWithoutGaps : (1 : Int) ≤ 1 ∧ (1, 0) ∈ fillCircleSet 0 0 1 ∧
    (-1, 0) ∈ fillCircleSet 0 0 1 ∧ (0, -1) ∈ fillCircleSet 0 0 1 := by decide

theorem test_witness_GlyphCells : (0 : Int) < 2 ∧ 1 < (2 : Nat) ∧ 0 < (1 : Nat) ∧
    valueAt (blitGlyphSet 0 0 ⟨2, 1, [[true, false]]⟩ 2 .on (some .off)) 3 1 = some .off ∧
    valueAt (blitGlyphSet 0 0 ⟨2, 1, [[true, false]]⟩ 2 .on none) 3 1 = none ∧
    valueAt (blitGlyphSet 0 0 ⟨2, 1, [[true, false]]⟩ 2 .on none) 4 0 = none := by decide

end Sys2Proof.Tests
end

/-! ## The invariant (O37, O38): every reset meets it, every step keeps it -/

namespace Sys2Proof

/-! ### Parameters -/

/-- The ranges of R5 as inequalities. -/
theorem Config.wf_iff {c : Config} :
    c.wf = true ↔ 1 ≤ c.width ∧ c.width ≤ 128 ∧ 1 ≤ c.height ∧ c.height ≤ 64 ∧ 1 ≤ c.maxXfer := by
  simp [Config.wf, and_assoc]

theorem Config.pages_pos {c : Config} (hc : c.wf = true) : 0 < c.pages := by
  have := wf_iff.mp hc
  unfold Config.pages
  omega

/-- The chip of `State.reset` is within R5, whatever its free parameters are. -/
theorem Config.chip_wf : Config.chip.wf = true := by
  rw [wf_iff]
  simp only [Config.chip]
  omega

end Sys2Proof

namespace Sys2Proof.Machine

/-! ### Pixels and windows -/

/-- A pixel in bounds lies in a byte of the framebuffer (R61). -/
theorem pixByte_lt_fbBytes {c : Config} {x y : Int} (h : inBounds c x y = true) : pixByte c x y < c.fbBytes := by
  simp only [inBounds, Bool.and_eq_true, decide_eq_true_eq] at h
  have hx : x.toNat < c.width := by omega
  have hy : y.toNat / 8 + 1 ≤ c.pages := by unfold Config.pages; omega
  calc pixByte c x y < (y.toNat / 8 + 1) * c.width := by rw [pixByte, Nat.succ_mul]; omega
    _ ≤ c.fbBytes := Nat.mul_le_mul_right _ hy

/-- A window of the full width over existing pages is in bounds (R120). -/
theorem inWindow_fullWidth {c : Config} {p0 p1 : Nat} (hc : c.wf = true) (hp : p0 ≤ p1) (hp1 : p1 < c.pages) :
    inWindow c (fullWidth c p0 p1) = true := by
  obtain ⟨hw, hw', -, hh, -⟩ := Config.wf_iff.mp hc
  have hpages : c.pages ≤ 8 := by unfold Config.pages; omega
  simp only [inWindow, fullWidth, Bool.and_eq_true, decide_eq_true_eq, BitVec.toNat_ofNat]
  rw [Nat.mod_eq_of_lt (by omega : c.width - 1 < 2 ^ 8), Nat.mod_eq_of_lt (by omega : p0 < 2 ^ 5),
    Nat.mod_eq_of_lt (by omega : p1 < 2 ^ 5)]
  exact ⟨⟨⟨Nat.zero_le _, by omega⟩, hp⟩, hp1⟩

/-- The window of all columns and pages, which a reset and BEGIN set (R40, R115). -/
theorem inWindow_wholePanel {c : Config} (hc : c.wf = true) : inWindow c (fullWidth c 0 (c.pages - 1)) = true :=
  inWindow_fullWidth hc (Nat.zero_le _) (Nat.sub_lt (Config.pages_pos hc) Nat.one_pos)

theorem inWindow_flushWindow {s : State} (hc : s.cfg.wf = true) : inWindow s.cfg s.flushWindow = true := by
  have hlast : s.cfg.pages - 1 < s.cfg.pages := Nat.sub_lt (Config.pages_pos hc) Nat.one_pos
  cases hm : s.mode with
  | horizontal => simpa [State.flushWindow, hm] using inWindow_wholePanel hc
  | vertical => simpa [State.flushWindow, hm] using inWindow_fullWidth hc le_rfl hlast
  | page => simpa [State.flushWindow, hm] using inWindow_fullWidth hc le_rfl hlast

/-! ### The transactions a command may issue (R69) -/

/-- Every block PushPages cuts has 1 to MAX_XFER bytes (R117). -/
theorem length_of_mem_chunksUpTo {k : Nat} (hk : 1 ≤ k) {n : Nat} {bs b : List Byte}
    (h : b ∈ chunksUpTo n k bs) : 1 ≤ b.length ∧ b.length ≤ k := by
  induction n generalizing bs with
  | zero => simp [chunksUpTo] at h
  | succ n ih =>
    cases bs with
    | nil => simp [chunksUpTo] at h
    | cons a as =>
      simp only [chunksUpTo, List.isEmpty_cons, Bool.false_eq_true, if_false, List.mem_cons] at h
      rcases h with rfl | h
      · simp only [List.length_take, List.length_cons]; omega
      · exact ih h

theorem xactOk_emitWindow (c : Config) (t : CmdTab) (m : Mode) (w : Window) :
    xactOk c (emitWindow t m w) = true := by
  cases m <;> simp [emitWindow, xactOk]

theorem xactOk_of_mem_pushPages {c : Config} (hc : c.wf = true) {bs : List Byte} {x : Xact}
    (h : Item.tx x ∈ pushPages c bs) : xactOk c x = true := by
  obtain ⟨b, hb, hx⟩ := List.mem_map.mp h
  cases hx
  obtain ⟨-, -, -, -, hk⟩ := Config.wf_iff.mp hc
  simpa [xactOk] using length_of_mem_chunksUpTo hk hb

/-- A window setting with the blocks after it, the unit a flush plan is made of (R195). -/
theorem xactOk_of_mem_windowed {c : Config} (hc : c.wf = true) {t : CmdTab} {m : Mode} {w : Window} {bs : List Byte}
    {x : Xact} (h : Item.tx x ∈ .tx (emitWindow t m w) :: pushPages c bs) : xactOk c x = true := by
  rcases List.mem_cons.mp h with hx | hx
  · cases hx
    exact xactOk_emitWindow c t m w
  · exact xactOk_of_mem_pushPages hc hx

theorem xactOk_of_mem_flushItems {s : State} (hc : s.cfg.wf = true) {x : Xact} (h : Item.tx x ∈ s.flushItems) :
    xactOk s.cfg x = true := by
  have paged (h : Item.tx x ∈ (List.range s.cfg.pages).flatMap s.flushPage) : xactOk s.cfg x = true := by
    obtain ⟨p, -, hx⟩ := List.mem_flatMap.mp h
    exact xactOk_of_mem_windowed hc hx
  cases hm : s.mode with
  | horizontal =>
    simp only [State.flushItems, hm] at h
    exact xactOk_of_mem_windowed hc h
  | vertical => exact paged (by simpa only [State.flushItems, hm] using h)
  | page => exact paged (by simpa only [State.flushItems, hm] using h)

/-- Every transaction in the steps of a command is one the trace may hold. -/
theorem xactOk_of_mem_items {s : State} (hc : s.cfg.wf = true) {i : Instr} {x : Xact} (h : Item.tx x ∈ items s i) :
    xactOk s.cfg x = true := by
  cases i with
  | nop | setPixel | getPixel | clear => simp [items] at h
  | begin mode contrast vccExt =>
    simp only [items, beginItems, List.mem_cons, Item.tx.injEq, List.not_mem_nil, or_false, reduceCtorEq,
      false_or] at h
    rcases h with rfl | rfl | rfl | rfl | rfl | rfl | rfl | rfl <;> simp [xactOk]
  | setWindow =>
    simp only [items, List.mem_singleton, Item.tx.injEq] at h
    exact h ▸ xactOk_emitWindow ..
  | setPower | setContrast | setInverted | close =>
    simp only [items, List.mem_singleton, Item.tx.injEq] at h
    simp [h, xactOk]
  | flush => exact xactOk_of_mem_flushItems hc h

/-! ### The invariant taken apart -/

/-- The invariant without its part about the sequencer. -/
structure State.Sound (s : State) : Prop where
  cfg : s.cfg.wf = true
  draw : s.fbReset.length = s.cfg.fbBytes
  fb : Memory.wf s.fbReset s.cfg.fbBytes s.fb = true
  window : inWindow s.cfg s.window = true
  result : resultOk s.code s.cause = true
  trace : s.trace.all (xactOk s.cfg) = true

theorem State.inv_iff {s : State} : s.inv = true ↔ s.Sound ∧ s.seqOk = true := by
  constructor
  · intro h
    simp only [State.inv, Bool.and_eq_true, decide_eq_true_eq] at h
    obtain ⟨⟨⟨⟨⟨⟨hc, hd⟩, hf⟩, hw⟩, hr⟩, ht⟩, hq⟩ := h
    exact ⟨⟨hc, hd, hf, hw, hr, ht⟩, hq⟩
  · rintro ⟨⟨hc, hd, hf, hw, hr, ht⟩, hq⟩
    simp only [State.inv, Bool.and_eq_true, decide_eq_true_eq]
    exact ⟨⟨⟨⟨⟨⟨hc, hd⟩, hf⟩, hw⟩, hr⟩, ht⟩, hq⟩

theorem State.seqOk_running {s : State} {r : Running} (h : s.seq = some r) :
    s.seqOk = true ↔ s.isOpen = true ∧ launchable s r.cmd = true ∧ waitsAt (items s r.cmd) r = true := by
  simp [State.seqOk, h, and_assoc]

theorem State.Sound.inv_of_idle {s : State} (hs : s.Sound) (h : s.seq = none) : s.inv = true :=
  State.inv_iff.mpr ⟨hs, by simp [State.seqOk, h]⟩

/-- The events to come, the held writes and the host's last read play no part in the invariant. -/
theorem State.inv_withOthers (s : State) (es : List Event) (p : List Word) (d : Word) :
    (s.withOthers es p d).inv = s.inv := by
  have hi (i : Instr) : items (s.withOthers es p d) i = items s i := items_congr rfl rfl rfl rfl i
  have hl (i : Instr) : launchable (s.withOthers es p d) i = launchable s i := by cases i <;> rfl
  simp only [State.inv, State.seqOk, hi, hl]
  rfl

theorem State.inv_with_env {s : State} (hs : s.inv = true) (es : List Event) : { s with env := es }.inv = true :=
  (s.inv_withOthers es s.port s.readData).trans hs

theorem State.inv_with_port {s : State} (hs : s.inv = true) (p : List Word) : { s with port := p }.inv = true :=
  (s.inv_withOthers s.env p s.readData).trans hs

theorem State.inv_with_readData {s : State} (hs : s.inv = true) (d : Word) : { s with readData := d }.inv = true :=
  (s.inv_withOthers s.env s.port d).trans hs

/-! ### Resets -/

theorem State.inv_resetTo {c : Config} {draw : List Byte} (hc : c.wf = true) (hd : draw.length = c.fbBytes) :
    (State.resetTo c draw).inv = true :=
  State.Sound.inv_of_idle
    { cfg := hc
      draw := hd
      fb := State.wf_resetTo c draw
      window := inWindow_wholePanel hc
      result := rfl
      trace := rfl } rfl

/-- Settles O38: the invariant holds after every reset within R5, and the chip of `State.reset` is within R5. -/
theorem resetMeetsTheInvariant : Obligations.ResetMeetsTheInvariant :=
  ⟨fun _ _ => State.inv_resetTo, State.inv_resetTo Config.chip_wf (by simp [Config.freeDraw])⟩

/-! ### Updates and completions -/

namespace State.Sound

variable {s : State} (hs : s.Sound)
include hs

theorem record {x : Xact} (h : xactOk s.cfg x = true) : (s.record x).Sound :=
  { hs with trace := by simpa [hs.trace] using h }

theorem writePixel (x y : Int) (v : PixelValue) : (s.writePixel x y v).Sound := by
  unfold State.writePixel
  split
  case isTrue h => exact { hs with fb := State.wf_memWrite hs.fb _ (pixByte_lt_fbBytes h) }
  case isFalse => exact hs

theorem clearFb : s.clearFb.Sound := { hs with fb := State.wf_clearFb hs.fb }

/-- A completion that leaves the parameters, the framebuffer and the trace alone has to answer for the window and the
result it writes. -/
theorem inv_of_completed {t : State} (hq : t.seq = none) (hc : t.cfg = s.cfg) (hd : t.fbReset = s.fbReset)
    (hf : t.fb = s.fb) (ht : t.trace = s.trace) (hw : inWindow s.cfg t.window = true)
    (hr : resultOk t.code t.cause = true) : t.inv = true :=
  inv_of_idle
    { cfg := by rw [hc]; exact hs.cfg
      draw := by rw [hc, hd]; exact hs.draw
      fb := by rw [hc, hd, hf]; exact hs.fb
      window := by rw [hc]; exact hw
      result := hr
      trace := by rw [hc, ht]; exact hs.trace } hq

/-- Every pair R220 and R221 allow completes a command within the invariant. -/
theorem inv_complete {code cause : Code} (h : resultOk code cause = true) : (s.complete code cause).inv = true :=
  hs.inv_of_completed rfl rfl rfl rfl rfl hs.window h

/-- The window after success is the one SET_WINDOW's checks let pass, one of the full width, or the one before. -/
theorem inWindow_finish {i : Instr} (hi : launchable s i = true) : inWindow s.cfg (finish i s).window = true := by
  cases i with
  | nop | setPixel | getPixel | clear | setPower | setContrast | setInverted | close => exact hs.window
  | begin => exact inWindow_wholePanel hs.cfg
  | setWindow =>
    simp only [launchable, Bool.and_eq_true] at hi
    exact hi.2
  | flush => exact inWindow_flushWindow hs.cfg

/-- The completion of a command whose steps all went through. -/
theorem inv_finish {i : Instr} (hi : launchable s i = true) : (finish i s).inv = true :=
  hs.inv_of_completed (finish_seq i s) (finish_cfg i s) (finish_fbReset i s) (finish_fb i s) (finish_trace i s)
    (hs.inWindow_finish hi) (by cases i <;> rfl)

/-- The completion of a command one of whose calls answered ERR. -/
theorem inv_fail (i : Instr) : (fail i s).inv = true :=
  hs.inv_of_completed (fail_seq i s) (fail_cfg i s) (fail_fbReset i s) (fail_fb i s) (fail_trace i s)
    (fail_window i s ▸ hs.window) (by cases i <;> rfl)

/-- A command the checks let through, waiting at one of its steps. -/
theorem inv_waiting {r : Running} (ho : s.isOpen = true) (hi : launchable s r.cmd = true)
    (hw : waitsAt (items s r.cmd) r = true) : { s with seq := some r }.inv = true := by
  refine State.inv_iff.mpr ⟨{ hs with }, (State.seqOk_running rfl).mpr ⟨ho, ?_, ?_⟩⟩
  · rw [← hi]; cases r.cmd <;> rfl
  · rw [← hw]; exact congrArg (waitsAt · r) (items_congr rfl rfl rfl rfl _)

end State.Sound

/-! ### The sequencer -/

@[simp] theorem items_record (s : State) (x : Xact) (i : Instr) : items (s.record x) i = items s i :=
  items_congr rfl rfl rfl rfl i

@[simp] theorem launchable_record (s : State) (x : Xact) (i : Instr) : launchable (s.record x) i = launchable s i := by
  cases i <;> rfl

/-- Issuing the steps of a command the checks let through, from any of its positions on. -/
theorem inv_issue {i : Instr} {k : Nat} {l : List Item} {s : State} (hs : s.Sound) (ho : s.isOpen = true)
    (hi : launchable s i = true) (hl : (items s i).drop k = l) : (issue i k l s).inv = true := by
  induction l generalizing k s with
  | nil => exact hs.inv_finish hi
  | cons item rest ih =>
    have hk : (items s i)[k]? = some item := by rw [← List.head?_drop, hl]; rfl
    cases item with
    | wait => exact hs.inv_waiting ho hi (by simp [waitsAt, hk])
    | tx x =>
      have hr : (s.record x).Sound := hs.record (xactOk_of_mem_items hs.cfg (List.mem_of_getElem? hk))
      have hi' : launchable (s.record x) i = true := by simpa using hi
      cases x with
      | cmd | cmdSeq | data => exact hr.inv_waiting ho hi' (by simp [waitsAt, hk])
      | reset => exact ih hr ho hi' (by rw [items_record, ← List.tail_drop, hl]; rfl)

theorem inv_deliver {s : State} (hs : s.inv = true) (r : Reply) : (deliver r s).inv = true := by
  cases hq : s.seq with
  | none => rwa [deliver_idle hq]
  | some run =>
    obtain ⟨hsound, hseq⟩ := State.inv_iff.mp hs
    obtain ⟨ho, hi, -⟩ := (State.seqOk_running hq).mp hseq
    have hadv : (advance run s).inv = true := inv_issue hsound ho hi rfl
    obtain ⟨i, k, p⟩ := run
    cases p <;> cases r <;> simp only [deliver, hq]
    case busCall.ok | powerupDelay.elapsed => exact hadv
    case busCall.err => exact hsound.inv_fail i
    all_goals exact hs

theorem inv_serve {s : State} (hs : s.inv = true) (es : List Event) : (serve es s).inv = true := by
  induction es generalizing s with
  | nil => exact State.inv_with_env hs []
  | cons e es ih =>
    cases e with
    | write | read | reset => exact State.inv_with_env hs _
    | reply r =>
      rw [serve]
      split
      · exact ih (inv_deliver hs r)
      · exact State.inv_with_env hs _

theorem State.Sound.inv_launch {s : State} (hs : s.Sound) (ho : s.isOpen = true) {i : Instr}
    (hi : launchable s i = true) : (launch i s).inv = true :=
  inv_serve (inv_issue hs ho hi rfl) s.env

/-! ### The gates -/

/-- The gate lets every driver command but SET_POWER ON through only where the panel is on (R111). -/
theorem isOn_of_driverGate {i : Instr} {s : State} (h : driverGate i s = true) (hi : i ≠ .setPower true) :
    s.isOn = true := by
  cases hc : s.ctrlState <;> simp_all [driverGate, State.isOn]

section
variable {i : Instr} {s : State} {run : State → State} (hs : s.inv = true)
include hs

theorem inv_whenIdle (h : (run s).inv = true) : (whenIdle i s run).inv = true := by
  unfold whenIdle
  split
  · exact State.inv_with_port hs _
  · exact h

theorem inv_whenOpen (h : s.isOpen = true → (run s).inv = true) : (whenOpen i s run).inv = true := by
  refine inv_whenIdle hs ?_
  split
  case isTrue ho => exact h ho
  case isFalse => exact (State.inv_iff.mp hs).1.inv_complete rfl

theorem inv_whenDriven (h : s.isOpen = true → driverGate i s = true → (run s).inv = true) :
    (whenDriven i s run).inv = true := by
  refine inv_whenOpen hs fun ho => ?_
  split
  case isTrue hg => exact h ho hg
  case isFalse => exact (State.inv_iff.mp hs).1.inv_complete rfl

/-- A driver command whose own check is the gate. -/
theorem inv_whenDriven_launch (hi : driverGate i s = true → launchable s i = true) :
    (whenDriven i s (launch i)).inv = true :=
  inv_whenDriven hs fun ho hg => (State.inv_iff.mp hs).1.inv_launch ho (hi hg)

end

/-! ### Commands, events, steps -/

/-- Every next state the outcome answers meets the invariant. -/
def KeepsInv (o : Host.Outcome State Fault Refusal) : Prop := ∀ t, o = .next t → t.inv = true

theorem KeepsInv.next {t : State} (h : t.inv = true) : KeepsInv (.next t) := by
  rintro _ ⟨⟩
  exact h

theorem KeepsInv.fault (r : Fault) : KeepsInv (.fault r) := by simp [KeepsInv]

theorem KeepsInv.refused (r : Refusal) : KeepsInv (.refused r) := by simp [KeepsInv]

section
variable {s : State} (hs : s.inv = true)
include hs

theorem keepsInv_execSetWindow (c0 c1 : BitVec 8) (p0 p1 : BitVec 5) : KeepsInv (execSetWindow c0 c1 p0 p1 s) := by
  have hsound := (State.inv_iff.mp hs).1
  refine .next (inv_whenDriven hs fun ho hg => ?_)
  split
  case isTrue hw => exact hsound.inv_launch ho (by simp [launchable, isOn_of_driverGate hg, hw])
  case isFalse => exact hsound.inv_complete rfl

/-- The gate and the case of R122 without a transaction leave just the states SET_POWER may run in. -/
theorem keepsInv_execSetPower (flag : Bool) : KeepsInv (execSetPower flag s) := by
  have hsound := (State.inv_iff.mp hs).1
  refine .next (inv_whenDriven hs fun ho hg => ?_)
  split
  case isTrue => exact hsound.inv_complete rfl
  case isFalse hu =>
    refine hsound.inv_launch ho ?_
    cases flag with
    | false => simp [launchable, isOn_of_driverGate hg]
    | true => cases hc : s.ctrlState <;> simp [launchable, State.isOn, hc] at hu ⊢

theorem keepsInv_execClose : KeepsInv (execClose s) := by
  have hsound := (State.inv_iff.mp hs).1
  refine .next (inv_whenOpen hs fun ho => ?_)
  cases hc : s.ctrlState with
  | active | sleeping =>
    simp only
    exact hsound.inv_launch ho (by simp [launchable, State.isOn, hc])
  | uninitialized | poweredOff => exact hsound.inv_of_completed rfl rfl rfl rfl rfl hsound.window rfl

/-- Every command keeps the invariant, held or run. -/
theorem keepsInv_exec (i : Instr) : KeepsInv (exec i s) := by
  have hsound := (State.inv_iff.mp hs).1
  cases i with
  | nop => exact .next (inv_whenIdle hs (hsound.inv_complete rfl))
  | begin mode contrast vccExt => exact .next (inv_whenOpen hs fun ho => hsound.inv_launch ho rfl)
  | setWindow c0 c1 p0 p1 => exact keepsInv_execSetWindow hs c0 c1 p0 p1
  | setPower flag => exact keepsInv_execSetPower hs flag
  | setContrast | setInverted | flush =>
    exact .next (inv_whenDriven_launch hs fun hg => isOn_of_driverGate hg (by simp))
  | setPixel x y v => exact .next (inv_whenOpen hs fun _ => (hsound.writePixel x y v).inv_complete rfl)
  | getPixel x y => exact .next (inv_whenOpen hs fun _ => hsound.inv_of_completed rfl rfl rfl rfl rfl hsound.window rfl)
  | clear => exact .next (inv_whenOpen hs fun _ => hsound.clearFb.inv_complete rfl)
  | close => exact keepsInv_execClose hs

theorem keepsInv_accept (w : Word) : KeepsInv (accept w s) := by
  unfold accept
  split
  · exact keepsInv_exec hs _
  · exact .next ((State.inv_iff.mp hs).1.inv_complete rfl)

omit hs in
/-- A host access either stops, or is what is made of its offset. -/
theorem keepsInv_access {use : Nat → Host.Outcome State Fault Refusal} (h : ∀ off, KeepsInv (use off))
    (addr width : Nat) : KeepsInv (access s addr width use) := by
  unfold access
  split
  · exact .fault _
  · split
    · exact .refused _
    · split
      · exact .refused _
      · exact h _

theorem keepsInv_hostWrite (addr width : Nat) (data : Word) : KeepsInv (hostWrite addr width data s) := by
  refine keepsInv_access (fun off => ?_) addr width
  cases off with
  | zero =>
    dsimp only
    split
    · exact .next (State.inv_with_port hs _)
    · exact keepsInv_accept hs data
  | succ off => exact .next hs

theorem keepsInv_hostRead (addr width : Nat) : KeepsInv (hostRead addr width s) :=
  keepsInv_access (fun _ => .next (State.inv_with_readData hs _)) addr width

omit hs in
theorem keepsInv_platformReset (c : Config) (draw : List Byte) : KeepsInv (platformReset c draw s) := by
  unfold platformReset
  split
  case isTrue h =>
    obtain ⟨hc, hd⟩ := Bool.and_eq_true_iff.mp h
    have hr := State.inv_resetTo hc (of_decide_eq_true hd)
    exact .next ((State.inv_withOthers _ s.env s.port s.readData).trans hr)
  case isFalse => exact .refused _

theorem keepsInv_handle (e : Event) : KeepsInv (handle e s) := by
  cases e with
  | write addr width data => exact keepsInv_hostWrite hs addr width data
  | read addr width => exact keepsInv_hostRead hs addr width
  | reply r => exact .next (inv_deliver hs r)
  | reset c draw => exact keepsInv_platformReset c draw

theorem keepsInv_nextEvent : KeepsInv (nextEvent s) := by
  unfold nextEvent
  split
  · exact .next hs
  · exact keepsInv_handle (State.inv_with_env hs _) _

theorem keepsInv_step : KeepsInv (step s) := by
  unfold step runStep
  split
  · exact keepsInv_nextEvent hs
  · split
    · exact keepsInv_nextEvent hs
    · exact keepsInv_accept (State.inv_with_port hs _) _

end

/-- Settles O37: a step accepts a command or handles an event, and each keeps the invariant. -/
theorem stepKeepsTheInvariant : Obligations.StepKeepsTheInvariant := fun _ t hs => keepsInv_step hs t

end Sys2Proof.Machine

/-! ## What a step can do: its event or the held word it accepts (O7, O8, O39, O41) -/

namespace Sys2Proof.Machine

/-! ### Host accesses -/

theorem windowOffset_eq_some {c : Config} {addr off : Nat} :
    windowOffset c addr = some off ↔ addr = c.base + off ∧ off < 32 := by
  unfold windowOffset
  split
  · rw [Option.some.injEq]; omega
  · simp only [reduceCtorEq, false_iff]; omega

/-- An aligned 32-bit access inside the window reaches the block (R63). -/
theorem access_aligned {s : State} {off : Nat} (h : off < 32) (ha : off % 4 = 0)
    (use : Nat → Host.Outcome State Fault Refusal) : access s (s.cfg.base + off) 4 use = use off := by
  simp [access, windowOffset_eq_some.mpr ⟨rfl, h⟩, ha]

/-- Only an aligned 32-bit access inside the window has an effect. -/
theorem access_next {s t : State} {addr width : Nat} {use : Nat → Host.Outcome State Fault Refusal}
    (h : access s addr width use = .next t) :
    ∃ off, addr = s.cfg.base + off ∧ width = 4 ∧ use off = .next t := by
  unfold access at h
  split at h
  · simp at h
  case h_2 off hoff =>
    split at h
    · simp at h
    · split at h
      · simp at h
      · exact ⟨off, (windowOffset_eq_some.mp hoff).1, by omega, h⟩

/-- A write to CMD (R22). -/
theorem hostWrite_cmd (s : State) (w : Word) :
    hostWrite s.cfg.base 4 w s = if s.busy then .next (s.hold w) else accept w s :=
  access_aligned (off := 0) (by omega) rfl _

/-- A write to another register is ignored (R68). -/
theorem hostWrite_ignored {s : State} {off : Nat} (h : off < 32) (ha : off % 4 = 0) (h0 : off ≠ 0) (w : Word) :
    hostWrite (s.cfg.base + off) 4 w s = .next s := by
  obtain ⟨k, rfl⟩ := Nat.exists_eq_succ_of_ne_zero h0
  exact access_aligned h ha _

theorem hostRead_aligned {s : State} {off : Nat} (h : off < 32) (ha : off % 4 = 0) :
    hostRead (s.cfg.base + off) 4 s = .next { s with readData := s.readRegister off } :=
  access_aligned h ha _

/-! ### The acceptance of a word -/

theorem accept_legal {w : Word} {i : Instr} (h : decode w = .legal i) (s : State) : accept w s = exec i s := by
  simp [accept, h]

theorem accept_illegal {w : Word} {why : Illegal} (h : decode w = .illegal why) (s : State) :
    accept w s = .next (s.complete .illegalCommand .ok) := by simp [accept, h]

/-! ### Events and steps -/

/-- What an event makes of a state from whose events it has been taken, when nothing stops the step: a CMD write is
held or accepted, another write is ignored, a read gives the host a word, a reply is delivered, a reset resets. -/
inductive Handled (s t : State) : Event → Prop
  | held (w : Word) : s.busy = true → t = s.hold w → Handled s t (.write s.cfg.base 4 w)
  | accepted (w : Word) : s.seq = none → accept w s = .next t → Handled s t (.write s.cfg.base 4 w)
  | ignored (addr width : Nat) (w : Word) : addr ≠ s.cfg.base → t = s → Handled s t (.write addr width w)
  | read (addr width : Nat) (d : Word) : t = { s with readData := d } → Handled s t (.read addr width)
  | replied (r : Reply) : t = deliver r s → Handled s t (.reply r)
  | reset (c : Config) (draw : List Byte) :
    t = { State.resetTo c draw with env := s.env, port := s.port, readData := s.readData } →
      Handled s t (.reset c draw)

theorem State.seq_eq_none {s : State} (h : s.busy = false) : s.seq = none := by simpa [State.busy] using h

theorem handled_of_hostWrite {s t : State} {addr width : Nat} {w : Word} (h : hostWrite addr width w s = .next t) :
    Handled s t (.write addr width w) := by
  obtain ⟨off, rfl, rfl, huse⟩ := access_next h
  cases off with
  | zero =>
    cases hb : s.busy with
    | true => exact .held w hb (by simpa [hb] using huse.symm)
    | false => exact .accepted w (State.seq_eq_none hb) (by simpa [hb] using huse)
  | succ k => exact .ignored _ _ w (by omega) (by simpa using huse.symm)

theorem handled_of_handle {s t : State} {e : Event} (h : handle e s = .next t) : Handled s t e := by
  cases e with
  | write addr width w => exact handled_of_hostWrite h
  | read addr width =>
    obtain ⟨off, -, -, huse⟩ := access_next h
    exact .read _ _ _ (by simpa using huse.symm)
  | reply r => exact .replied r (by simpa [handle] using h.symm)
  | reset c draw =>
    simp only [handle, platformReset] at h
    split at h
    · exact .reset c draw (by simpa using h.symm)
    · simp at h

/-- What a step makes of a state, when nothing stops it: with no event it waits, or it handles the next event, or the
idle block accepts the CMD write held longest. -/
inductive Stepped (s t : State) : Prop
  | waited : s.env = [] → t = s → Stepped s t
  | event (e : Event) (es : List Event) : (s.busy = true ∨ s.port = []) → s.env = e :: es →
    Handled { s with env := es } t e → Stepped s t
  | acceptedHeld (w : Word) (ws : List Word) : s.seq = none → s.port = w :: ws →
    accept w { s with port := ws } = .next t → Stepped s t

/-- Where no held word can be accepted the step is the next event. -/
theorem step_eq_nextEvent {s : State} (h : s.busy = true ∨ s.port = []) : step s = nextEvent s := by
  rcases h with h | h
  · exact step_busy h
  · simp [step, runStep, h]

theorem step_event {s : State} {e : Event} {es : List Event} (h : s.busy = true ∨ s.port = [])
    (he : s.env = e :: es) : step s = handle e { s with env := es } := by
  rw [step_eq_nextEvent h, nextEvent, he]

theorem step_acceptsHeld {s : State} {w : Word} {ws : List Word} (h : s.seq = none) (hp : s.port = w :: ws) :
    step s = accept w { s with port := ws } := by
  simp [step, runStep, hp, State.busy, h]

theorem stepped_of_step {s t : State} (h : step s = .next t) : Stepped s t := by
  have handled (hp : s.busy = true ∨ s.port = []) : Stepped s t := by
    cases he : s.env with
    | nil =>
      rw [step_eq_nextEvent hp, nextEvent, he] at h
      exact .waited he (by simpa using h.symm)
    | cons e es => exact .event e es hp he (handled_of_handle (step_event hp he ▸ h))
  cases hp : s.port with
  | nil => exact handled (.inr hp)
  | cons w ws =>
    cases hb : s.busy with
    | true => exact handled (.inl hb)
    | false =>
      have hq := State.seq_eq_none hb
      exact .acceptedHeld w ws hq hp (step_acceptsHeld hq hp ▸ h)

/-! ### The command cycle -/

/-- Settles O7: a held word, or a fresh one when none is held, is accepted, and a legal word runs. -/
theorem stepRunsTheDecodedInstruction : Obligations.StepRunsTheDecodedInstruction := by
  refine ⟨fun s w ws i hq hp hi => ?_, fun s w es i hq hp he hi => ?_⟩
  · rw [step_acceptsHeld hq hp, accept_legal hi]
  · have hb : State.busy { s with env := es } = false := by simp [State.busy, hq]
    calc step s = hostWrite s.cfg.base 4 w { s with env := es } := step_event (.inr hp) he
      _ = accept w { s with env := es } := by rw [hostWrite_cmd { s with env := es } w, hb]; rfl
      _ = exec i { s with env := es } := accept_legal hi _

@[simp] theorem deliver_port (r : Reply) (s : State) : (deliver r s).port = s.port := by
  cases h : s.seq with
  | none => rw [deliver_idle h]
  | some run =>
    obtain ⟨-, -, -, -, hp, -, -⟩ := (deliver_ran h r).frame
    exact hp

/-- A busy block adds the CMD write an event is to the words it holds, and drops none. -/
theorem Handled.port_of_busy {s t : State} {e : Event} (h : Handled s t e) (hb : s.busy = true) :
    t.port = s.port ++ (cmdWrite s.cfg e).toList := by
  cases h with
  | held w _ ht => simp [ht, cmdWrite]
  | accepted w hq => simp [State.busy, hq] at hb
  | ignored addr width w ha ht => simp [ht, cmdWrite, ha]
  | read addr width d ht => simp [ht, cmdWrite]
  | replied r ht => simp [ht, cmdWrite]
  | reset c draw ht => simp [ht, cmdWrite]

theorem port_of_busy_step {s t : State} (hb : s.busy = true) (h : step s = .next t) :
    t.port = s.port ++ (s.env.take 1).filterMap (cmdWrite s.cfg) := by
  cases stepped_of_step h with
  | waited he ht => simp [ht, he]
  | event e es _ he hh =>
    rw [hh.port_of_busy hb, he]
    cases hc : cmdWrite s.cfg e <;> simp [hc]
  | acceptedHeld w ws hq => simp [State.busy, hq] at hb

/-- Settles O8: the port of a busy block only grows, at its end, and an idle block takes its first word. -/
theorem heldCommandsKeepTheirOrder : Obligations.HeldCommandsKeepTheirOrder := by
  refine ⟨fun s w es hb he => ?_, fun s t => port_of_busy_step, fun s w ws => step_acceptsHeld,
    fun s i hb => exec_busy hb i⟩
  calc step s = hostWrite s.cfg.base 4 w { s with env := es } := step_event (.inl hb) he
    _ = .next (State.hold { s with env := es } w) := by
      rw [hostWrite_cmd { s with env := es } w, show State.busy { s with env := es } = true from hb, if_pos rfl]

/-- A read of the register at an aligned offset of the window, spelled out. -/
theorem readRegister_aligned (s : State) {off : Nat} (h : off < 32) (ha : off % 4 = 0) :
    s.readRegister off = if off = 0x04 then s.statusWord else if off = 0x08 then s.ctrlWord
      else if off = 0x0C then s.window.toWord else if off = 0x10 then dimWord s.cfg else 0 := by
  interval_cases off <;> rfl

/-- Settles O41: an aligned access reaches the block, where a read gives its word and another write does nothing. -/
theorem registerWindowAccesses : Obligations.RegisterWindowAccesses := by
  intro s off es hp h ha
  refine ⟨fun he => ?_, fun d h0 he => ?_⟩
  · rw [step_event hp he, ← readRegister_aligned s h ha]
    exact hostRead_aligned (s := { s with env := es }) h ha
  · rw [step_event hp he]
    exact hostWrite_ignored (s := { s with env := es }) h ha h0 d

/-! ### Reset values -/

/-- After a reset the framebuffer is the draw (R40). -/
theorem memRead_resetTo {c : Config} {draw : List Byte} {a : Nat} (h : a < draw.length) :
    some ((State.resetTo c draw).memRead a) = draw[a]? := by
  simp [State.memRead, State.resetTo, Memory.read, Memory.lookup, Memory.unlisted, h]

/-- The words a host reads of STATUS and CTRL after a reset (R40): only OPEN and MODE are not 0. -/
theorem statusWord_resetTo (c : Config) (draw : List Byte) : (State.resetTo c draw).statusWord = 0x00000008 := by
  simp [State.statusWord, State.resetTo, State.busy, State.isActive, Code.toBits, CtrlState.toBits]

theorem ctrlWord_resetTo (c : Config) (draw : List Byte) : (State.resetTo c draw).ctrlWord = 0x00000200 := by
  simp [State.ctrlWord, State.resetTo, Mode.toBits]

/-- Settles O39: each field of `State.resetTo` is the value of R40's table, and no byte is listed over the draw. -/
theorem resetValues : Obligations.ResetValues := by
  rintro c draw s rfl
  exact ⟨rfl, rfl, rfl, rfl, rfl, rfl, rfl, rfl, rfl, rfl, rfl, rfl, rfl, fun a ha => memRead_resetTo ha, rfl, rfl,
    statusWord_resetTo c draw, ctrlWord_resetTo c draw⟩

end Sys2Proof.Machine

/-! ## What a command can do: its writes and its frame (O18, O24, O36, O44, O48, O49) -/

namespace Sys2Proof.Machine

/-! ### What running a command makes of a state -/

/-- What `exec` of an instruction makes of a state: a busy block holds its word; an idle one refuses it or completes
it with no write but the result fields, launches it when its checks pass, or makes the one write of a pixel command
or of a CLOSE with nothing to power off. -/
inductive Executed (s : State) : Instr → State → Prop
  | held (i : Instr) : s.busy = true → Executed s i (s.hold (encode i))
  | completed (i : Instr) (code cause : Code) : s.seq = none → Executed s i (s.complete code cause)
  | launched (i : Instr) : s.seq = none → s.isOpen = true → launchable s i = true → Executed s i (launch i s)
  | wrote (x y : Int) (v : PixelValue) : s.seq = none →
    Executed s (.setPixel x y v) ((s.writePixel x y v).complete .ok .ok)
  | read (x y : Int) : s.seq = none →
    Executed s (.getPixel x y) ({ s with pixel := s.readPixel x y }.complete .ok .ok)
  | cleared : s.seq = none → Executed s .clear (s.clearFb.complete .ok .ok)
  | closed (cause : Code) : s.seq = none → Executed s .close (closeUnpowered cause s)

section
variable {i : Instr} {s : State} {run : State → State}

theorem executed_whenIdle (h : s.seq = none → Executed s i (run s)) : Executed s i (whenIdle i s run) := by
  unfold whenIdle
  split
  case isTrue hb => exact .held i hb
  case isFalse hb => exact h (State.seq_eq_none (by simpa using hb))

theorem executed_whenOpen (h : s.seq = none → s.isOpen = true → Executed s i (run s)) :
    Executed s i (whenOpen i s run) := by
  refine executed_whenIdle fun hq => ?_
  split
  case isTrue ho => exact h hq ho
  case isFalse => exact .completed i _ _ hq

theorem executed_whenDriven (h : s.seq = none → s.isOpen = true → driverGate i s = true → Executed s i (run s)) :
    Executed s i (whenDriven i s run) := by
  refine executed_whenOpen fun hq ho => ?_
  split
  case isTrue hg => exact h hq ho hg
  case isFalse => exact .completed i _ _ hq

/-- A driver command whose own check is the gate. -/
theorem executed_whenDriven_launch (hi : driverGate i s = true → launchable s i = true) :
    Executed s i (whenDriven i s (launch i)) :=
  executed_whenDriven fun hq ho hg => .launched i hq ho (hi hg)

end

theorem executed_setWindow (c0 c1 : BitVec 8) (p0 p1 : BitVec 5) (s : State) :
    Executed s (.setWindow c0 c1 p0 p1) (whenDriven (.setWindow c0 c1 p0 p1) s fun s =>
      if inWindow s.cfg ⟨c0, c1, p0, p1⟩ then launch (.setWindow c0 c1 p0 p1) s else s.raise .outOfRange .ok) := by
  refine executed_whenDriven fun hq ho hg => ?_
  split
  case isTrue hw => exact .launched _ hq ho (by simp [launchable, isOn_of_driverGate hg, hw])
  case isFalse => exact .completed _ _ _ hq

/-- The gate and the case of R122 without a transaction leave just the states SET_POWER may run in. -/
theorem launchable_setPower {flag : Bool} {s : State} (hg : driverGate (.setPower flag) s = true)
    (hu : ¬(flag && decide (s.ctrlState = .uninitialized)) = true) : launchable s (.setPower flag) = true := by
  cases flag with
  | false => simp [launchable, isOn_of_driverGate hg]
  | true => cases hc : s.ctrlState <;> simp [launchable, State.isOn, hc] at hu ⊢

theorem executed_setPower (flag : Bool) (s : State) :
    Executed s (.setPower flag) (whenDriven (.setPower flag) s fun s =>
      if flag && decide (s.ctrlState = .uninitialized) then s.complete .ok .ok else launch (.setPower flag) s) := by
  refine executed_whenDriven fun hq ho hg => ?_
  split
  case isTrue => exact .completed _ _ _ hq
  case isFalse hu => exact .launched _ hq ho (launchable_setPower hg hu)

theorem executed_of_exec {i : Instr} {s t : State} (h : exec i s = .next t) : Executed s i t := by
  cases i with
  | nop => cases h; exact executed_whenIdle fun hq => .completed _ _ _ hq
  | begin m c v => cases h; exact executed_whenOpen fun hq ho => .launched _ hq ho rfl
  | setWindow c0 c1 p0 p1 => cases h; exact executed_setWindow c0 c1 p0 p1 s
  | setPower flag => cases h; exact executed_setPower flag s
  | setContrast | setInverted | flush =>
    cases h
    exact executed_whenDriven_launch fun hg => isOn_of_driverGate hg (by simp)
  | setPixel x y v => cases h; exact executed_whenOpen fun hq _ => .wrote x y v hq
  | getPixel x y => cases h; exact executed_whenOpen fun hq _ => .read x y hq
  | clear => cases h; exact executed_whenOpen fun hq _ => .cleared hq
  | close =>
    cases h
    refine executed_whenOpen fun hq ho => ?_
    cases hc : s.ctrlState with
    | active | sleeping => exact .launched _ hq ho (by simp [launchable, State.isOn, hc])
    | uninitialized | poweredOff => exact .closed _ hq

/-! ### Which pieces of state a command writes -/

/-- The pieces of state a step from `s` to `t` may have written while it worked on the command `c`, if on one: each
field with the commands that write it (R27, R29, R30, R32, R34), and the trace, which only grows (R70). -/
structure WritesOnly (c : Option Instr) (s t : State) : Prop where
  cfg : t.cfg = s.cfg
  fbReset : t.fbReset = s.fbReset
  fb : t.fb ≠ s.fb → (∃ x y v, c = some (.setPixel x y v)) ∨ c = some .clear
  pixel : t.pixel ≠ s.pixel → ∃ x y, c = some (.getPixel x y)
  ctrlState : t.ctrlState ≠ s.ctrlState →
    (∃ m k v, c = some (.begin m k v)) ∨ (∃ f, c = some (.setPower f)) ∨ c = some .close
  contrast : t.contrast ≠ s.contrast → (∃ m k v, c = some (.begin m k v)) ∨ ∃ v, c = some (.setContrast v)
  mode : t.mode ≠ s.mode → ∃ m k v, c = some (.begin m k v)
  vccExt : t.vccExt ≠ s.vccExt → ∃ m k v, c = some (.begin m k v)
  inverted : t.inverted ≠ s.inverted → (∃ m k v, c = some (.begin m k v)) ∨ ∃ f, c = some (.setInverted f)
  window : t.window ≠ s.window →
    (∃ m k v, c = some (.begin m k v)) ∨ (∃ c0 c1 p0 p1, c = some (.setWindow c0 c1 p0 p1)) ∨ c = some .flush
  isOpen : t.isOpen ≠ s.isOpen → c = some .close ∧ t.isOpen = false
  trace : ∃ xs, t.trace = s.trace ++ xs
  trace_of_none : c = none → t.trace = s.trace

/-- Where only the result fields, the sequencer and what is not the block's change, nothing is written. -/
theorem WritesOnly.of_rest {s t : State} (c : Option Instr)
    (h : t = { s with
      code := t.code, cause := t.cause, seq := t.seq, port := t.port, env := t.env, readData := t.readData }) :
    WritesOnly c s t := by
  rw [h]
  exact {
    cfg := rfl
    fbReset := rfl
    fb := absurd rfl
    pixel := absurd rfl
    ctrlState := absurd rfl
    contrast := absurd rfl
    mode := absurd rfl
    vccExt := absurd rfl
    inverted := absurd rfl
    window := absurd rfl
    isOpen := absurd rfl
    trace := ⟨[], (List.append_nil _).symm⟩
    trace_of_none := fun _ => rfl }

/-- The completion of a command whose steps all went through writes what its rule names. -/
theorem writesOnly_finish (i : Instr) (s : State) : WritesOnly (some i) s (finish i s) where
  cfg := finish_cfg i s
  fbReset := finish_fbReset i s
  fb h := absurd (finish_fb i s) h
  pixel h := absurd (finish_pixel i s) h
  ctrlState h := by
    cases i with
    | begin m k v => exact .inl ⟨m, k, v, rfl⟩
    | setPower f => exact .inr (.inl ⟨f, rfl⟩)
    | close => exact .inr (.inr rfl)
    | _ => exact absurd rfl h
  contrast h := by
    cases i with
    | begin m k v => exact .inl ⟨m, k, v, rfl⟩
    | setContrast v => exact .inr ⟨v, rfl⟩
    | _ => exact absurd rfl h
  mode h := by
    cases i with
    | begin m k v => exact ⟨m, k, v, rfl⟩
    | _ => exact absurd rfl h
  vccExt h := by
    cases i with
    | begin m k v => exact ⟨m, k, v, rfl⟩
    | _ => exact absurd rfl h
  inverted h := by
    cases i with
    | begin m k v => exact .inl ⟨m, k, v, rfl⟩
    | setInverted f => exact .inr ⟨f, rfl⟩
    | _ => exact absurd rfl h
  window h := by
    cases i with
    | begin m k v => exact .inl ⟨m, k, v, rfl⟩
    | setWindow c0 c1 p0 p1 => exact .inr (.inl ⟨c0, c1, p0, p1, rfl⟩)
    | flush => exact .inr (.inr rfl)
    | _ => exact absurd rfl h
  isOpen h := by
    cases i with
    | close => exact ⟨rfl, rfl⟩
    | _ => exact absurd rfl h
  trace := ⟨[], by simp⟩
  trace_of_none h := nomatch h

/-- A failure writes STATE for BEGIN, OPEN for CLOSE and else nothing but the result fields. -/
theorem writesOnly_fail (i : Instr) (s : State) : WritesOnly (some i) s (fail i s) where
  cfg := fail_cfg i s
  fbReset := fail_fbReset i s
  fb h := absurd (fail_fb i s) h
  pixel h := absurd (fail_pixel i s) h
  ctrlState h := by
    cases i with
    | begin m k v => exact .inl ⟨m, k, v, rfl⟩
    | _ => exact absurd rfl h
  contrast h := absurd (fail_contrast i s) h
  mode h := absurd (fail_mode i s) h
  vccExt h := absurd (fail_vccExt i s) h
  inverted h := absurd (fail_inverted i s) h
  window h := absurd (fail_window i s) h
  isOpen h := by
    cases i with
    | close => exact ⟨rfl, rfl⟩
    | _ => exact absurd rfl h
  trace := ⟨[], by simp⟩
  trace_of_none h := nomatch h

/-- Running a command to where it must wait, or to its end, writes what its rule names. -/
theorem Ran.writesOnly {i : Instr} {s t : State} (h : Ran i s t) : WritesOnly (some i) s t := by
  obtain ⟨-, -, -, -, -, -, htrace⟩ := h.frame
  obtain ⟨xs, es, q, ⟨rfl, -⟩ | rfl | rfl⟩ := h
  · exact { WritesOnly.of_rest (s := { s with trace := s.trace ++ xs, env := es, seq := q }) (some i) rfl with
      trace := htrace
      trace_of_none := nofun }
  · exact { writesOnly_finish i { s with trace := s.trace ++ xs, env := es, seq := q } with
      trace := htrace
      trace_of_none := nofun }
  · exact { writesOnly_fail i { s with trace := s.trace ++ xs, env := es, seq := q } with
      trace := htrace
      trace_of_none := nofun }

/-- WritePixel changes the framebuffer alone (R140). -/
theorem State.writePixel_eq (s : State) (x y : Int) (v : PixelValue) :
    s.writePixel x y v = { s with fb := (s.writePixel x y v).fb } := by
  unfold State.writePixel
  split <;> rfl

/-- A write to the framebuffer, for the commands that make one. -/
theorem WritesOnly.of_fb {s : State} {c : Option Instr} (h : (∃ x y v, c = some (.setPixel x y v)) ∨ c = some .clear)
    (m : List Host.Cell) (code cause : Code) : WritesOnly c s ({ s with fb := m }.complete code cause) :=
  { WritesOnly.of_rest (s := s) (t := s.complete code cause) c rfl with fb := fun _ => h }

/-- What `exec` may write. -/
theorem Executed.writesOnly {i : Instr} {s t : State} (h : Executed s i t) : WritesOnly (some i) s t := by
  cases h with
  | held | completed => exact .of_rest _ rfl
  | launched => exact (launch_ran i s).writesOnly
  | wrote x y v => rw [State.writePixel_eq]; exact .of_fb (.inl ⟨x, y, v, rfl⟩) _ _ _
  | read x y =>
    exact { WritesOnly.of_rest (s := s) (t := s.complete .ok .ok) (some (.getPixel x y)) rfl with
      pixel := fun _ => ⟨x, y, rfl⟩ }
  | cleared => exact .of_fb (.inr rfl) _ _ _
  | closed cause =>
    exact { WritesOnly.of_rest (s := s) (t := s.complete .ok cause) (some .close) rfl with
      isOpen := fun _ => ⟨rfl, rfl⟩ }

theorem Executed.readData {i : Instr} {s t : State} (h : Executed s i t) : t.readData = s.readData := by
  cases h with
  | launched =>
    obtain ⟨-, -, -, -, -, hr, -⟩ := (launch_ran i s).frame
    exact hr
  | wrote => rw [State.writePixel_eq]; rfl
  | held | completed | read | cleared | closed => rfl

/-- The port changes only where the word is held. -/
theorem Executed.port {i : Instr} {s t : State} (h : Executed s i t) (hq : s.seq = none) : t.port = s.port := by
  cases h with
  | held _ hb => simp [State.busy, hq] at hb
  | launched =>
    obtain ⟨-, -, -, -, hp, -, -⟩ := (launch_ran i s).frame
    exact hp
  | wrote => rw [State.writePixel_eq]; rfl
  | completed | read | cleared | closed => rfl

/-! ### The frames of the commands -/

/-- A command other than SET_PIXEL and CLEAR changes no byte of the framebuffer. -/
theorem Executed.memRead {i : Instr} {s t : State} (h : Executed s i t) (hp : ∀ x y v, i ≠ .setPixel x y v)
    (hc : i ≠ .clear) (a : Nat) : t.memRead a = s.memRead a := by
  refine State.memRead_congr h.writesOnly.fbReset (of_not_not fun hne => ?_) a
  obtain ⟨x, y, v, he⟩ | he := h.writesOnly.fb hne
  · exact hp x y v (Option.some.inj he)
  · exact hc (Option.some.inj he)

/-- SET_PIXEL stores to no byte but its own (R140). -/
theorem State.memRead_writePixel {s : State} (hm : Memory.rising 0 s.fb) {x y : Int} (v : PixelValue) {a : Nat}
    (ha : inBounds s.cfg x y = true → a ≠ pixByte s.cfg x y) : (s.writePixel x y v).memRead a = s.memRead a := by
  unfold State.writePixel
  split
  case isTrue h => rw [State.memRead_memWrite hm, if_neg (ha h).symm]
  case isFalse => rfl

/-- A pixel command launches nothing, so only the framebuffer, the result fields, PIXEL and the port can change. -/
theorem Executed.frame_of_not_launchable {i : Instr} {s t : State} (h : Executed s i t)
    (hl : launchable s i = false) (hc : i ≠ .close) :
    t = { s with fb := t.fb, code := t.code, cause := t.cause, pixel := t.pixel, port := t.port } := by
  cases h with
  | held => rfl
  | launched _ _ _ hl' => simp [hl] at hl'
  | wrote x y v hq => rw [State.writePixel_eq, hq]; rfl
  | completed _ _ _ hq | read _ _ hq | cleared hq => rw [hq]; rfl
  | closed => exact absurd rfl hc

theorem Executed.memRead_setPixel {s t : State} {x y : Int} {v : PixelValue} (h : Executed s (.setPixel x y v) t)
    (hm : Memory.rising 0 s.fb) {a : Nat} (ha : inBounds s.cfg x y = true → a ≠ pixByte s.cfg x y) :
    t.memRead a = s.memRead a := by
  cases h with
  | held | completed => rfl
  | launched _ _ _ hl => simp [launchable] at hl
  | wrote => exact State.memRead_writePixel hm v ha

theorem Executed.memRead_clear {s t : State} (h : Executed s .clear t) (hm : Memory.rising 0 s.fb) {a : Nat}
    (ha : s.cfg.fbBytes ≤ a) : t.memRead a = s.memRead a := by
  cases h with
  | held | completed => rfl
  | launched _ _ _ hl => simp [launchable] at hl
  | cleared =>
    calc s.clearFb.memRead a = if a < s.cfg.fbBytes then 0 else s.memRead a := State.memRead_clearFb hm a
      _ = s.memRead a := if_neg (by omega)

/-- Settles O18: these commands launch nothing, and of the framebuffer they write what their rules name. -/
theorem pixelCommandFrame : Obligations.PixelCommandFrame := by
  intro i s t hi hwf h
  have he := executed_of_exec h
  have hm := State.rising_of_wf hwf
  have hframe : launchable s i = false ∧ i ≠ .close := by
    rcases hi with rfl | ⟨x, y, v, rfl⟩ | ⟨x, y, rfl⟩ | rfl <;> simp [launchable]
  refine ⟨he.frame_of_not_launchable hframe.1 hframe.2, he.port, fun hg => by simpa [hg] using he.writesOnly.pixel,
    ?_, ?_, fun hc hp => he.memRead hp hc⟩
  · rintro x y v rfl a ha
    exact he.memRead_setPixel hm ha
  · rintro rfl a ha
    exact he.memRead_clear hm ha

/-- Settles O24: of the fields `WritesOnly` lists, a driver command other than FLUSH writes its own. -/
theorem driverCommandFrame : Obligations.DriverCommandFrame := by
  intro i s t hd hflush h
  have he := executed_of_exec h
  have hw := he.writesOnly
  have hbegin : ∀ m c v, i ≠ .begin m c v := by rintro m c v rfl; simp [isDriver] at hd
  have hset : ∀ x y v, i ≠ .setPixel x y v := by rintro x y v rfl; simp [isDriver] at hd
  have hget : ∀ x y, i ≠ .getPixel x y := by rintro x y rfl; simp [isDriver] at hd
  have hclear : i ≠ .clear := by rintro rfl; simp [isDriver] at hd
  have hclose : i ≠ .close := by rintro rfl; simp [isDriver] at hd
  exact ⟨hw.cfg, hw.fbReset, he.memRead hset hclear, by simpa [hclose] using hw.isOpen, by simpa [hget] using hw.pixel,
    by simpa [hbegin] using hw.mode, by simpa [hbegin] using hw.vccExt, he.readData, he.port,
    fun hne => by simpa [hbegin, hflush, hne] using hw.window,
    fun hne => by simpa [hbegin, hclose, hne] using hw.ctrlState,
    fun hne => by simpa [hbegin, hne] using hw.contrast, fun hne => by simpa [hbegin, hne] using hw.inverted⟩

/-- Settles O36: of the fields `WritesOnly` lists, BEGIN, FLUSH and CLOSE write those of their rules. -/
theorem sessionCommandFrame : Obligations.SessionCommandFrame := by
  intro i s t hi h
  have he := executed_of_exec h
  have hw := he.writesOnly
  have hset : ∀ x y v, i ≠ .setPixel x y v := by rintro x y v rfl; simp at hi
  have hget : ∀ x y, i ≠ .getPixel x y := by rintro x y rfl; simp at hi
  have hclear : i ≠ .clear := by rintro rfl; simp at hi
  refine ⟨hw.cfg, hw.fbReset, he.memRead hset hclear, by simpa [hget] using hw.pixel, he.readData, he.port,
    fun hne => by simpa [hne] using hw.isOpen, ?_, ?_, ?_⟩
  · rintro rfl
    simpa using hw.window
  · rintro rfl
    simpa using hw.ctrlState
  · rintro (rfl | rfl) <;>
      exact ⟨by simpa using hw.contrast, by simpa using hw.mode, by simpa using hw.vccExt, by simpa using hw.inverted⟩

/-! ### What a step writes -/

/-- What is not the block's may be replaced on the side of the state before. -/
theorem WritesOnly.of_withOthers {c : Option Instr} {s t : State} {es : List Event} {p : List Word} {d : Word}
    (h : WritesOnly c (s.withOthers es p d) t) : WritesOnly c s t := { h with }

theorem writesOnly_of_accept {w : Word} {s t : State} (h : accept w s = .next t) : WritesOnly (legalOf w) s t := by
  cases hd : decode w with
  | legal i =>
    rw [accept_legal hd] at h
    simpa [legalOf, hd] using (executed_of_exec h).writesOnly
  | illegal why =>
    rw [accept_illegal hd] at h
    cases h
    exact .of_rest _ rfl

/-- The command of a step that accepts a word is the one the word stands for. -/
theorem State.current_of_accepts {s : State} (hq : s.seq = none) {w : Word} (h : s.accepts = some w) :
    s.current = legalOf w := by simp [State.current, hq, h]

theorem State.accepts_held {s : State} (hq : s.seq = none) {w : Word} {ws : List Word} (hp : s.port = w :: ws) :
    s.accepts = some w := by simp [State.accepts, hq, hp]

theorem State.accepts_write {s : State} (hq : s.seq = none) (hp : s.port = []) {w : Word} {es : List Event}
    (he : s.env = .write s.cfg.base 4 w :: es) : s.accepts = some w := by
  simp [State.accepts, hq, hp, he, windowOffset]

theorem State.current_running {s : State} {r : Running} (h : s.seq = some r) : s.current = some r.cmd := by
  simp [State.current, h]

/-- A step that handles a reset is one. -/
theorem State.resets_of_event {s : State} (hp : s.busy = true ∨ s.port = []) {c : Config} {draw : List Byte}
    {es : List Event} (he : s.env = .reset c draw :: es) : s.resets = true := by
  have hev : s.event = some (.reset c draw) := by
    unfold State.event
    split
    case h_1 hq hp' => simp [State.busy, hq, hp'] at hp
    case h_2 => rw [he]; rfl
  simp [State.resets, hev]

/-- A reply writes what the rule of the command in progress names. -/
theorem writesOnly_deliver (r : Reply) (s : State) (es : List Event) :
    WritesOnly s.current s (deliver r { s with env := es }) := by
  rcases Option.eq_none_or_eq_some s.seq with hq | ⟨run, hq⟩
  · rw [deliver_idle (s := { s with env := es }) hq]
    exact .of_rest _ rfl
  · rw [State.current_running hq]
    exact { (deliver_ran (s := { s with env := es }) hq r).writesOnly with }

/-- What a step that is no reset may write: what the rule of its command names. -/
theorem writesOnly_of_step {s t : State} (hr : s.resets = false) (h : step s = .next t) :
    WritesOnly s.current s t := by
  cases stepped_of_step h with
  | waited _ ht => rw [ht]; exact .of_rest _ rfl
  | acceptedHeld w ws hq hp ha =>
    rw [State.current_of_accepts hq (State.accepts_held hq hp)]
    exact WritesOnly.of_withOthers (s := s) (es := s.env) (p := ws) (d := s.readData) (writesOnly_of_accept ha)
  | event e es hp he hh =>
    have drop {c : Option Instr} (hw : WritesOnly c { s with env := es } t) : WritesOnly c s t :=
      WritesOnly.of_withOthers (s := s) (es := es) (p := s.port) (d := s.readData) hw
    cases hh with
    | held w _ ht | ignored _ _ _ _ ht | read _ _ _ ht => rw [ht]; exact .of_rest _ rfl
    | accepted w hq ha =>
      have hq' : s.seq = none := hq
      have hp' : s.port = [] := hp.resolve_left (by simp [State.busy, hq'])
      rw [State.current_of_accepts hq' (State.accepts_write hq' hp' he)]
      exact drop (writesOnly_of_accept ha)
    | replied r ht => rw [ht]; exact writesOnly_deliver r s es
    | reset c draw => simp [State.resets_of_event hp he] at hr

/-- Settles O48: the trace is one of the pieces `WritesOnly` speaks of. -/
theorem traceOnlyGrows : Obligations.TraceOnlyGrows := fun _ _ hr h =>
  have hw := writesOnly_of_step hr h
  ⟨hw.trace, hw.trace_of_none⟩

/-- Settles O49: what a step may write is what the rule of its command names. -/
theorem writersOfEachField : Obligations.WritersOfEachField := fun _ _ hr h =>
  have hw := writesOnly_of_step hr h
  ⟨hw.cfg, hw.fbReset, hw.fb, hw.pixel, hw.contrast, fun hne => hne.elim hw.mode hw.vccExt, hw.inverted, hw.window,
    hw.isOpen⟩

/-! ### While a command runs -/

/-- The state `t` differs from `s` in nothing a running command may not change: the sequencer, the trace, and what is
not the block's (R24). -/
def RunsOn (s t : State) : Prop :=
  t = { s with seq := t.seq, trace := t.trace, port := t.port, env := t.env, readData := t.readData }

theorem Ran.runsOn {i : Instr} {s t : State} (h : Ran i s t) (hb : t.busy = true) : RunsOn s t := by
  obtain ⟨xs, es, q, ⟨rfl, -⟩ | rfl | rfl⟩ := h
  · rfl
  · simp [State.busy] at hb
  · simp [State.busy] at hb

/-- The only way out of `exec` into a busy block is a launch. -/
theorem Executed.launched_of_busy {i : Instr} {s t : State} (h : Executed s i t) (hq : s.seq = none)
    (hb : t.busy = true) : s.isOpen = true ∧ launchable s i = true ∧ t = launch i s := by
  cases h with
  | held _ hbusy => simp [State.busy, hq] at hbusy
  | launched _ _ ho hl => exact ⟨ho, hl, rfl⟩
  | completed | wrote | read | cleared | closed => simp [State.busy, closeUnpowered] at hb

theorem runsOn_of_accept {w : Word} {s t : State} (h : accept w s = .next t) (hq : s.seq = none)
    (hb : t.busy = true) : RunsOn s t := by
  cases hd : decode w with
  | legal i =>
    rw [accept_legal hd] at h
    obtain ⟨-, -, rfl⟩ := (executed_of_exec h).launched_of_busy hq hb
    exact (launch_ran i s).runsOn hb
  | illegal why =>
    rw [accept_illegal hd] at h
    cases h
    simp [State.busy] at hb

theorem Handled.runsOn {s t : State} {e : Event} (h : Handled s t e) (hb : t.busy = true) : RunsOn s t := by
  cases h with
  | held w _ ht | ignored _ _ _ _ ht | read _ _ _ ht => rw [ht]; rfl
  | accepted w hq ha => exact runsOn_of_accept ha hq hb
  | replied r ht =>
    subst ht
    cases hq : s.seq with
    | none => rw [deliver_idle hq]; rfl
    | some run => exact (deliver_ran hq r).runsOn hb
  | reset c draw ht => simp [ht, State.busy, State.resetTo] at hb

/-- Settles O44: a step into a busy block has launched a command, delivered a reply or only met the host. -/
theorem busyStepsHideResults : Obligations.BusyStepsHideResults := by
  intro s t h hb
  cases stepped_of_step h with
  | waited _ ht => rw [ht]
  | event e es _ _ hh => exact hh.runsOn hb
  | acceptedHeld w ws hq _ ha => exact runsOn_of_accept (s := { s with port := ws }) ha hq hb

end Sys2Proof.Machine

/-! ## Answers that come late (O60) -/

namespace Sys2Proof.Machine

/-! ### The next step of a command -/

/-- Issuing a transaction that has a result: it is recorded and outstanding (R35, R37). -/
theorem issue_tx {x : Xact} (hx : x ≠ .reset) (i : Instr) (k : Nat) (l : List Item) (s : State) :
    issue i k (.tx x :: l) s = { s with seq := some ⟨i, k, .busCall⟩, trace := s.trace ++ [x] } := by
  cases x with
  | reset => exact absurd rfl hx
  | cmd | cmdSeq | data => rfl

/-- A command passes a step behind which a transaction stands. -/
theorem advance_tx {i : Instr} {k : Nat} {p : Pending} {x : Xact} {s : State} (h : (items s i)[k + 1]? = some (.tx x))
    (hx : x ≠ .reset) :
    advance ⟨i, k, p⟩ s = { s with seq := some ⟨i, k + 1, .busCall⟩, trace := s.trace ++ [x] } := by
  obtain ⟨hk, hget⟩ := List.getElem?_eq_some_iff.mp h
  rw [advance, List.drop_eq_getElem_cons hk, hget]
  exact issue_tx hx ..

/-- A command passes its last step, and completes. -/
theorem advance_last {i : Instr} {k : Nat} {p : Pending} {s : State} (h : (items s i).length = k + 1) :
    advance ⟨i, k, p⟩ s = finish i s := by
  rw [advance, List.drop_eq_nil_of_le (by simp [h])]
  rfl

/-- The answer OK, the next event, to the outstanding call of a command. -/
theorem step_ok {s : State} {i : Instr} {k : Nat} {es : List Event} (he : s.env = .reply .ok :: es)
    (hq : s.seq = some ⟨i, k, .busCall⟩) : step s = .next (advance ⟨i, k, .busCall⟩ { s with env := es }) := by
  rw [step_reply hq he]
  simp [deliver, hq]

/-- OK to a command's last call completes it with the writes of its rule. -/
theorem step_ok_last {s : State} {i : Instr} {k : Nat} {es : List Event} (he : s.env = .reply .ok :: es)
    (hq : s.seq = some ⟨i, k, .busCall⟩) (hl : (items s i).length = k + 1) :
    step s = .next (finish i { s with env := es }) := by
  have hi : items { s with env := es } i = items s i := items_congr rfl rfl rfl rfl i
  rw [step_ok he hq, advance_last (hi ▸ hl)]

/-- OK to a call behind which a transaction stands issues it. -/
theorem step_ok_tx {s : State} {i : Instr} {k : Nat} {x : Xact} {es : List Event} (he : s.env = .reply .ok :: es)
    (hq : s.seq = some ⟨i, k, .busCall⟩) (hx : x ≠ .reset) (hk : (items s i)[k + 1]? = some (.tx x)) :
    step s = .next { s with seq := some ⟨i, k + 1, .busCall⟩, trace := s.trace ++ [x], env := es } := by
  have hi : items { s with env := es } i = items s i := items_congr rfl rfl rfl rfl i
  rw [step_ok he hq, advance_tx (hi ▸ hk) hx]

/-- The window a flush plan ends on (R195), field by field. -/
theorem flushWindow_eq (s : State) :
    s.flushWindow = ⟨0, BitVec.ofNat 8 (s.cfg.width - 1),
      if s.mode = .horizontal then 0 else BitVec.ofNat 5 (s.cfg.pages - 1), BitVec.ofNat 5 (s.cfg.pages - 1)⟩ := by
  cases h : s.mode <;> simp [State.flushWindow, fullWidth, h]

/-- The delay's end issues BEGIN's first command (R114). -/
theorem step_elapsed {s : State} {es : List Event} {m : Mode} {c : Byte} {v : Bool}
    (he : s.env = .reply .elapsed :: es) (hq : s.seq = some ⟨.begin m c v, 1, .powerupDelay⟩) :
    step s = .next { s with
      seq := some ⟨.begin m c v, 2, .busCall⟩, trace := s.trace ++ [.cmd s.cfg.cmdtab.displayOff], env := es } := by
  have hd : deliver .elapsed { s with env := es } =
      advance ⟨.begin m c v, 1, .powerupDelay⟩ { s with env := es } := by simp [deliver, hq]
  rw [step_reply hq he, hd, advance_tx (x := .cmd s.cfg.cmdtab.displayOff) rfl (by simp)]

/-- A reply to nothing that is waited for has no effect. -/
theorem step_unawaited {s : State} {r : Reply} {es : List Event} (he : s.env = .reply r :: es)
    (h : s.seq = none ∧ s.port = [] ∨ (∃ i k, s.seq = some ⟨i, k, .busCall⟩) ∧ r = .elapsed ∨
      (∃ i k, s.seq = some ⟨i, k, .powerupDelay⟩) ∧ r ≠ .elapsed) :
    step s = .next { s with env := es } := by
  rcases h with ⟨hq, hp⟩ | ⟨⟨i, k, hq⟩, rfl⟩ | ⟨⟨i, k, hq⟩, hr⟩
  · rw [step_event (.inr hp) he]
    exact congrArg Host.Outcome.next (deliver_idle (s := { s with env := es }) hq r)
  · rw [step_reply hq he]
    simp [deliver, hq]
  · rw [step_reply hq he]
    cases r with
    | elapsed => exact absurd rfl hr
    | ok | err => simp [deliver, hq]

/-! ### An answer at hand and an answer that comes later -/

/-- A command its checks let through is launched. -/
theorem exec_of_launchable {i : Instr} {s : State} (hq : s.seq = none) (ho : s.isOpen = true)
    (hl : launchable s i = true) : exec i s = .next (launch i s) := by
  cases i with
  | nop | setPixel | getPixel | clear => simp [launchable] at hl
  | begin m c v => exact congrArg _ (whenOpen_open hq ho _)
  | setContrast | setInverted | flush => exact congrArg _ (whenDriven_passed hq ho (driverGate_of_isOn hl _) _)
  | setWindow c0 c1 p0 p1 =>
    obtain ⟨hon, hw⟩ : s.isOn = true ∧ inWindow s.cfg ⟨c0, c1, p0, p1⟩ = true := by simpa [launchable] using hl
    simp [exec, execSetWindow, whenDriven_passed hq ho (driverGate_of_isOn hon _), hw]
  | setPower flag =>
    have hu : s.ctrlState ≠ .uninitialized := by
      intro hc
      simp [launchable, State.isOn, hc] at hl
    have hg : driverGate (.setPower flag) s = true := by
      cases flag with
      | false => exact driverGate_of_isOn (by simpa [launchable] using hl) _
      | true => exact driverGate_setPowerOn s
    simp [exec, execSetPower, whenDriven_passed hq ho hg, hu]
  | close =>
    simp only [exec, execClose, whenOpen_open hq ho]
    cases hc : s.ctrlState with
    | active | sleeping => rfl
    | uninitialized | poweredOff => simp [launchable, State.isOn, hc] at hl

/-- Replies delivered one after the other. -/
def deliverAll (rs : List Reply) (s : State) : State := rs.foldl (fun s r => deliver r s) s

theorem deliverAll_idle {s : State} (h : s.seq = none) (rs : List Reply) : deliverAll rs s = s := by
  induction rs with
  | nil => rfl
  | cons r rs ih => rwa [deliverAll, List.foldl_cons, deliver_idle h]

theorem deliverAll_withOthers (rs : List Reply) (s : State) (es : List Event) (p : List Word) (d : Word) :
    deliverAll rs (s.withOthers es p d) = (deliverAll rs s).withOthers es p d := by
  induction rs generalizing s with
  | nil => rfl
  | cons r rs ih => rw [deliverAll, List.foldl_cons, deliver_withOthers]; exact ih _

/-- Where serving replies leaves the block busy, each of them has been delivered. -/
theorem busy_deliverAll_of_busy_serve {rs : List Reply} {es : List Event} (hes : noReply es = true) {s : State}
    (h : (serve (rs.map .reply ++ es) s).busy = true) : (deliverAll rs s).busy = true := by
  induction rs generalizing s with
  | nil => rwa [List.map_nil, List.nil_append, serve_noReply hes] at h
  | cons r rs ih =>
    simp only [List.map_cons, List.cons_append, serve] at h
    split at h
    case isTrue => exact ih h
    case isFalse hb => exact absurd h hb

/-- Where replies delivered leave the block busy, serving delivers them and goes on with what comes behind. -/
theorem serve_append_of_busy {rs : List Reply} (es : List Event) {s : State} (h : (deliverAll rs s).busy = true) :
    serve (rs.map .reply ++ es) s = serve es (deliverAll rs s) := by
  induction rs generalizing s with
  | nil => rfl
  | cons r rs ih =>
    have hb : s.busy = true := by
      by_contra hb
      have hq := State.seq_eq_none (by simpa using hb)
      exact hb (deliverAll_idle hq (r :: rs) ▸ h)
    simp only [List.map_cons, List.cons_append, serve, hb, if_true]
    exact ih h

/-- A command just launched, after the replies `rs` to its calls. -/
def answered (i : Instr) (rs : List Reply) (s : State) : State := deliverAll rs (issue i 0 (items s i) s)

theorem launch_withOthers (i : Instr) (s : State) (es : List Event) (p : List Word) (d : Word) :
    launch i (s.withOthers es p d) = serve es ((issue i 0 (items s i) s).withOthers es p d) := by
  rw [launch, items_congr (s := s) (t := s.withOthers es p d) rfl rfl rfl rfl i, issue_withOthers]
  rfl

theorem busy_answered_of_busy_launch {i : Instr} {s : State} {rs : List Reply} {es : List Event} {p : List Word}
    {d : Word} (hes : noReply es = true) (h : (launch i (s.withOthers (rs.map .reply ++ es) p d)).busy = true) :
    (answered i rs s).busy = true := by
  rw [launch_withOthers] at h
  have hb := busy_deliverAll_of_busy_serve hes h
  rwa [deliverAll_withOthers] at hb

/-- Where a command still waits after the replies `rs`, launching delivers them and goes on with what comes behind. -/
theorem launch_append_of_busy {i : Instr} {s : State} {rs : List Reply} (h : (answered i rs s).busy = true)
    (es : List Event) (p : List Word) (d : Word) :
    launch i (s.withOthers (rs.map .reply ++ es) p d) =
      serve es ((answered i rs s).withOthers (rs.map .reply ++ es) p d) := by
  rw [launch_withOthers, serve_append_of_busy, deliverAll_withOthers]
  · rfl
  · rwa [deliverAll_withOthers]

/-- With no further answer at hand the command waits. -/
theorem launch_waits {i : Instr} {s : State} {rs : List Reply} (h : (answered i rs s).busy = true) {es : List Event}
    (hes : noReply es = true) (p : List Word) (d : Word) :
    launch i (s.withOthers (rs.map .reply ++ es) p d) = (answered i rs s).withOthers es p d := by
  rw [launch_append_of_busy h, serve_noReply hes]
  rfl

/-- With one more answer at hand the command takes it. -/
theorem launch_takes {i : Instr} {s : State} {rs : List Reply} (h : (answered i rs s).busy = true) {es : List Event}
    (hes : noReply es = true) (r : Reply) (p : List Word) (d : Word) :
    launch i (s.withOthers (rs.map .reply ++ .reply r :: es) p d) =
      (deliver r (answered i rs s)).withOthers es p d := by
  have hb : ((answered i rs s).withOthers (rs.map .reply ++ .reply r :: es) p d).busy = true := h
  rw [launch_append_of_busy h, serve, if_pos hb, deliver_withOthers, serve_noReply hes]
  rfl

/-- An answer that comes in a later step finds a waiting command as it was. -/
theorem step_takes {s : State} (h : s.busy = true) (r : Reply) (es : List Event) (p : List Word) (d : Word) :
    step (s.withOthers (.reply r :: es) p d) = .next ((deliver r s).withOthers es p d) := by
  obtain ⟨run, hq⟩ := Option.isSome_iff_exists.mp h
  rw [step_reply (s := s.withOthers (.reply r :: es) p d) hq rfl, ← deliver_withOthers]
  rfl

/-- Settles O60: OK to a call issues the next transaction or completes the command, and an answer meets the same
waiting command whether it is at hand or comes later. -/
theorem lateAnswersMoveTheCommandOn : Obligations.LateAnswersMoveTheCommandOn := by
  refine ⟨fun s es he => ⟨fun i k x hq hk hx => step_ok_tx he hq hx hk, fun c0 c1 p0 p1 hq => step_ok_last he hq rfl,
    fun f hq => step_ok_last he hq rfl, fun v hq => step_ok_last he hq rfl, fun f hq => step_ok_last he hq rfl,
    fun hq => step_ok_last he hq rfl, fun m c v hq => step_ok_last he hq rfl, fun k hq hl => ?_⟩,
    fun s es m c v => step_elapsed, fun s r es => step_unawaited, fun i s t rs r es p d hq hes h hb => ?_⟩
  · rw [step_ok_last he hq hl, ← flushWindow_eq]
    rfl
  · obtain ⟨ho, hl, rfl⟩ := (executed_of_exec h).launched_of_busy hq hb
    have hw : (answered i rs s).busy = true :=
      busy_answered_of_busy_launch (p := s.port) (d := s.readData) hes hb
    have hwaits : launch i { s with env := rs.map .reply ++ es } = _ := launch_waits hw hes s.port s.readData
    have htakes : launch i { s with env := rs.map .reply ++ .reply r :: es } = _ :=
      launch_takes hw hes r s.port s.readData
    refine ⟨_, exec_of_launchable hq ho hl, ?_⟩
    rw [hwaits, htakes]
    exact step_takes hw r es p d

end Sys2Proof.Machine

/-! ## The fields of the registers (O42) -/

namespace Sys2Proof.Machine

/-! A field of a word is read by passing over the fields below it, one `append` each; the widths of the sums are left
as they stand (`-Nat.reduceAdd`), or the lemmas about `append` no longer fit. -/

section
open BitVec

variable (s : State)

/-! ### STATUS (R23) -/

theorem statusWord_state : s.statusWord.extractLsb' 0 2 = s.ctrlState.toBits := by
  simp [-Nat.reduceAdd, State.statusWord, extractLsb'_append_eq_right]

theorem statusWord_active : s.statusWord.getLsbD 2 = s.isActive := by
  simp [-Nat.reduceAdd, -getLsbD_eq_getElem, State.statusWord, getLsbD_append]

theorem statusWord_open : s.statusWord.getLsbD 3 = s.isOpen := by
  simp [-Nat.reduceAdd, -getLsbD_eq_getElem, State.statusWord, getLsbD_append]

theorem statusWord_busy : s.statusWord.getLsbD 4 = s.busy := by
  simp [-Nat.reduceAdd, -getLsbD_eq_getElem, State.statusWord, getLsbD_append]

theorem statusWord_reserved_low : s.statusWord.extractLsb' 5 3 = 0 := by
  simp [-Nat.reduceAdd, State.statusWord, extractLsb'_append_eq_of_le, extractLsb'_append_eq_right]

theorem statusWord_code : s.statusWord.extractLsb' 8 4 = s.code.toBits := by
  simp [-Nat.reduceAdd, State.statusWord, extractLsb'_append_eq_of_le, extractLsb'_append_eq_right]

theorem statusWord_cause : s.statusWord.extractLsb' 12 4 = s.cause.toBits := by
  simp [-Nat.reduceAdd, State.statusWord, extractLsb'_append_eq_of_le, extractLsb'_append_eq_right]

theorem statusWord_pixel : s.statusWord.getLsbD 16 = s.pixel := by
  simp [-Nat.reduceAdd, -getLsbD_eq_getElem, State.statusWord, getLsbD_append]

theorem statusWord_reserved_high : s.statusWord.extractLsb' 17 15 = 0 := by
  simp [-Nat.reduceAdd, State.statusWord, extractLsb'_append_eq_of_le]

/-- ACTIVE is 1 exactly when the field STATE is 2 (R26). -/
theorem isActive_eq_decide : s.isActive = decide (s.ctrlState.toBits = 2#2) := by
  cases h : s.ctrlState <;> simp [State.isActive, CtrlState.toBits, h]

theorem busy_eq_decide : s.busy = decide (s.seq ≠ none) := by
  cases h : s.seq <;> simp [State.busy, h]

/-! ### CTRL (R30) -/

theorem ctrlWord_contrast : s.ctrlWord.extractLsb' 0 8 = s.contrast := by
  simp [-Nat.reduceAdd, State.ctrlWord, extractLsb'_append_eq_right]

theorem ctrlWord_mode : s.ctrlWord.extractLsb' 8 2 = s.mode.toBits := by
  simp [-Nat.reduceAdd, State.ctrlWord, extractLsb'_append_eq_of_le, extractLsb'_append_eq_right]

theorem ctrlWord_vccExt : s.ctrlWord.getLsbD 10 = s.vccExt := by
  simp [-Nat.reduceAdd, -getLsbD_eq_getElem, State.ctrlWord, getLsbD_append]

theorem ctrlWord_inverted : s.ctrlWord.getLsbD 11 = s.inverted := by
  simp [-Nat.reduceAdd, -getLsbD_eq_getElem, State.ctrlWord, getLsbD_append]

theorem ctrlWord_reserved : s.ctrlWord.extractLsb' 12 20 = 0 := by
  simp [-Nat.reduceAdd, State.ctrlWord, extractLsb'_append_eq_of_le]

/-- The reserved mode is never held (R31). -/
theorem Mode.toBits_ne_three (m : Mode) : m.toBits ≠ 3#2 := by cases m <;> decide

/-! ### WINDOW (R32) -/

variable (w : Window)

theorem toWord_c0 : w.toWord.extractLsb' 18 8 = w.c0 := by
  simp [-Nat.reduceAdd, Window.toWord, extractLsb'_append_eq_of_le, extractLsb'_append_eq_right]

theorem toWord_c1 : w.toWord.extractLsb' 10 8 = w.c1 := by
  simp [-Nat.reduceAdd, Window.toWord, extractLsb'_append_eq_of_le, extractLsb'_append_eq_right]

theorem toWord_p0 : w.toWord.extractLsb' 5 5 = w.p0 := by
  simp [-Nat.reduceAdd, Window.toWord, extractLsb'_append_eq_of_le, extractLsb'_append_eq_right]

theorem toWord_p1 : w.toWord.extractLsb' 0 5 = w.p1 := by
  simp [-Nat.reduceAdd, Window.toWord, extractLsb'_append_eq_right]

theorem toWord_reserved : w.toWord.extractLsb' 26 6 = 0 := by
  simp [-Nat.reduceAdd, Window.toWord, extractLsb'_append_eq_of_le]

/-! ### DIM (R33) -/

variable (c : Config)

theorem dimWord_width : (dimWord c).extractLsb' 0 8 = BitVec.ofNat 8 c.width := by
  simp [-Nat.reduceAdd, dimWord, extractLsb'_append_eq_right]

theorem dimWord_height : (dimWord c).extractLsb' 8 8 = BitVec.ofNat 8 c.height := by
  simp [-Nat.reduceAdd, dimWord, extractLsb'_append_eq_of_le, extractLsb'_append_eq_right]

theorem dimWord_pages : (dimWord c).extractLsb' 16 4 = BitVec.ofNat 4 c.pages := by
  simp [-Nat.reduceAdd, dimWord, extractLsb'_append_eq_of_le, extractLsb'_append_eq_right]

theorem dimWord_reserved : (dimWord c).extractLsb' 20 12 = 0 := by
  simp [-Nat.reduceAdd, dimWord, extractLsb'_append_eq_of_le]

end

/-- Within R5 the fields of DIM lose nothing. -/
theorem dimWord_lossless {c : Config} (hc : c.wf = true) :
    ((dimWord c).extractLsb' 0 8).toNat = c.width ∧ ((dimWord c).extractLsb' 8 8).toNat = c.height ∧
      ((dimWord c).extractLsb' 16 4).toNat = c.pages := by
  obtain ⟨-, hw, -, hh, -⟩ := Config.wf_iff.mp hc
  have hp : c.pages ≤ 8 := by unfold Config.pages; omega
  rw [dimWord_width, dimWord_height, dimWord_pages, BitVec.toNat_ofNat, BitVec.toNat_ofNat, BitVec.toNat_ofNat]
  exact ⟨Nat.mod_eq_of_lt (by omega), Nat.mod_eq_of_lt (by omega), Nat.mod_eq_of_lt (by omega)⟩

/-- Settles O42: each field of the four words, with the numbers of its values. -/
theorem registerFields : Obligations.RegisterFields := by
  rintro s number rfl
  refine ⟨⟨?_, ?_, statusWord_open s, ?_, statusWord_reserved_low s, ?_, ?_, statusWord_pixel s,
      statusWord_reserved_high s⟩,
    ⟨ctrlWord_contrast s, ?_, ?_, ctrlWord_vccExt s, ctrlWord_inverted s, ctrlWord_reserved s⟩,
    ⟨toWord_c0 _, toWord_c1 _, toWord_p0 _, toWord_p1 _, toWord_reserved _⟩, fun hc => ?_⟩
  · rw [statusWord_state]
    cases s.ctrlState <;> rfl
  · rw [statusWord_active, statusWord_state, isActive_eq_decide]
  · rw [statusWord_busy, busy_eq_decide]
  · rw [statusWord_code]
    cases s.code <;> rfl
  · rw [statusWord_cause]
    cases s.cause <;> rfl
  · rw [ctrlWord_mode]
    cases s.mode <;> rfl
  · rw [ctrlWord_mode]
    exact Mode.toBits_ne_three _
  · obtain ⟨hw, hh, hp⟩ := dimWord_lossless hc
    exact ⟨dimWord_width _, hw, hh, hp, dimWord_reserved _⟩

end Sys2Proof.Machine

/-! ## Where pixels lie, and the padding bits of the last page (O10, O16) -/

namespace Sys2Proof.Machine

/-! ### Places in the framebuffer -/

/-- Byte `p * w + x` lies in page `p` and column `x` alone (R60). -/
theorem page_column_unique {w p p' x x' : Nat} (hx : x < w) (hx' : x' < w) (h : p * w + x = p' * w + x') :
    p = p' ∧ x = x' := by
  have hdivMod {q z : Nat} (hz : z < w) : (q * w + z) / w = q ∧ (q * w + z) % w = z :=
    (Nat.div_mod_unique (by omega)).mpr ⟨by rw [Nat.mul_comm, Nat.add_comm], hz⟩
  obtain ⟨hp, hcol⟩ := hdivMod (q := p) hx
  obtain ⟨hp', hcol'⟩ := hdivMod (q := p') hx'
  rw [h] at hp hcol
  exact ⟨hp.symm.trans hp', hcol.symm.trans hcol'⟩

theorem inBounds_iff {c : Config} {x y : Int} :
    inBounds c x y = true ↔ 0 ≤ x ∧ x < c.width ∧ 0 ≤ y ∧ y < c.height := by
  simp [inBounds, and_assoc]

/-- Bit `n` of page `p` and column `k` holds the pixel of column `k` and row `8 * p + n`, and no other. -/
theorem pixel_of_place {c : Config} {x y : Int} (h : inBounds c x y = true) {p k n : Nat} (hk : k < c.width)
    (ha : pixByte c x y = p * c.width + k) (hn : pixBit y = n) : x = k ∧ y = (8 * p + n : Nat) := by
  obtain ⟨hx0, hxw, hy0, -⟩ := inBounds_iff.mp h
  obtain ⟨hpage, hcol⟩ := page_column_unique (by omega) hk ha
  unfold pixBit at hn
  omega

/-- Distinct pixels in bounds have distinct places (R61). -/
theorem pixel_place_injective {c : Config} {x y x' y' : Int} (h : inBounds c x y = true)
    (h' : inBounds c x' y' = true) (ha : pixByte c x y = pixByte c x' y') (hn : pixBit y = pixBit y') :
    x = x' ∧ y = y' := by
  obtain ⟨hx0, hxw, hy0, -⟩ := inBounds_iff.mp h'
  obtain ⟨hx, hy⟩ := pixel_of_place h (by omega) ha hn
  unfold pixBit at hy
  omega

theorem State.readPixel_inBounds {s : State} {x y : Int} (h : inBounds s.cfg x y = true) :
    s.readPixel x y = (s.memRead (pixByte s.cfg x y)).getLsbD (pixBit y) := by
  simp [State.readPixel, h]

/-- Settles O10: a place in the framebuffer gives back its page, its column and so its pixel. -/
theorem pixelAddresses : Obligations.PixelAddresses :=
  ⟨fun _ _ _ h => ⟨rfl, rfl, pixByte_lt_fbBytes h⟩,
    fun _ _ _ _ _ h h' ha hn => pixel_place_injective h h' ha hn,
    fun _ _ _ h => State.readPixel_inBounds h⟩

/-! ### The bits a pixel write leaves alone -/

/-- A pixel write changes one bit of its byte (R140). -/
theorem getLsbD_pixelByte_of_ne {n m : Nat} (h : m ≠ n) (v : PixelValue) (b : Byte) :
    (pixelByte v n b).getLsbD m = b.getLsbD m := by
  have hmask : (1#8 <<< n).getLsbD m = false := by
    rw [← BitVec.twoPow_eq, BitVec.getLsbD_twoPow]
    simp [h.symm]
  cases v with
  | off =>
    by_cases hm : m < 8
    · simp only [pixelByte, BitVec.getLsbD_and, BitVec.getLsbD_not, hmask, hm, decide_true, Bool.not_false,
        Bool.and_true]
    · rw [BitVec.getLsbD_of_ge _ _ (by omega), BitVec.getLsbD_of_ge _ _ (by omega)]
  | on => simp only [pixelByte, BitVec.getLsbD_or, hmask, Bool.or_false]
  | invert => simp only [pixelByte, BitVec.getLsbD_xor, hmask, Bool.xor_false]

/-- SET_PIXEL changes no bit but its pixel's (R140). -/
theorem State.getLsbD_memRead_writePixel {s : State} (hm : Memory.rising 0 s.fb) {x y : Int} (v : PixelValue)
    {a n : Nat} (h : inBounds s.cfg x y = true → pixByte s.cfg x y = a → pixBit y ≠ n) :
    ((s.writePixel x y v).memRead a).getLsbD n = (s.memRead a).getLsbD n := by
  by_cases ha : inBounds s.cfg x y = true ∧ a = pixByte s.cfg x y
  · obtain ⟨hin, rfl⟩ := ha
    have hbyte : (s.writePixel x y v).memRead (pixByte s.cfg x y) =
        pixelByte v (pixBit y) (s.memRead (pixByte s.cfg x y)) := by
      simp [State.writePixel, hin, State.memRead_memWrite hm]
    rw [hbyte, getLsbD_pixelByte_of_ne (h hin rfl).symm]
  · rw [State.memRead_writePixel hm v fun hin he => ha ⟨hin, he⟩]

/-! ### Pixel commands an open, idle block runs -/

theorem exec_setPixel_ready {s : State} (h : s.ready) (x y : Int) (v : PixelValue) :
    exec (.setPixel x y v) s = .next ((s.writePixel x y v).complete .ok .ok) :=
  congrArg _ (whenOpen_open h.1 h.2 _)

theorem exec_clear_ready {s : State} (h : s.ready) : exec .clear s = .next (s.clearFb.complete .ok .ok) :=
  congrArg _ (whenOpen_open h.1 h.2 _)

/-! ### The padding bits of the last page (R65) -/

/-- A bit of the last page at or below row HEIGHT is no pixel's. -/
theorem pixBit_ne_of_padding {c : Config} {x y : Int} {k n : Nat} (hk : k < c.width)
    (hn : c.height ≤ 8 * (c.pages - 1) + n) (h : inBounds c x y = true)
    (ha : pixByte c x y = (c.pages - 1) * c.width + k) : pixBit y ≠ n := by
  intro hbit
  obtain ⟨-, hy⟩ := pixel_of_place h hk ha hbit
  obtain ⟨-, -, -, hyh⟩ := inBounds_iff.mp h
  omega

/-- The last page lies in the framebuffer. -/
theorem lastPage_lt_fbBytes {c : Config} {k : Nat} (hk : k < c.width) (hh : 1 ≤ c.height) :
    (c.pages - 1) * c.width + k < c.fbBytes := by
  have hp : 1 ≤ c.pages := by unfold Config.pages; omega
  calc (c.pages - 1) * c.width + k < (c.pages - 1) * c.width + c.width := by omega
    _ = c.fbBytes := by rw [← Nat.succ_mul, Config.fbBytes, Nat.succ_eq_add_one, Nat.sub_add_cancel hp]

/-- Settles O16: a padding bit is no pixel's, so SET_PIXEL leaves it, and CLEAR writes its byte. -/
theorem paddingBitsOnlyCleared : Obligations.PaddingBitsOnlyCleared := by
  refine ⟨fun c draw a ha => memRead_resetTo ha, fun s c n hs hwf hc hh _ hn => ⟨fun x y v => ?_, ?_⟩⟩
  · exact ⟨_, exec_setPixel_ready hs x y v,
      State.getLsbD_memRead_writePixel (State.rising_of_wf hwf) v (pixBit_ne_of_padding hc hn)⟩
  · have hzero : s.clearFb.memRead ((s.cfg.pages - 1) * s.cfg.width + c) = 0 := by
      rw [State.memRead_clearFb (State.rising_of_wf hwf), if_pos (lastPage_lt_fbBytes hc hh)]
    refine ⟨_, exec_clear_ready hs, ?_⟩
    calc (s.clearFb.memRead ((s.cfg.pages - 1) * s.cfg.width + c)).getLsbD n = (0 : Byte).getLsbD n := by rw [hzero]
      _ = false := BitVec.getLsbD_zero

end Sys2Proof.Machine

/-! ## Host accesses that stop (O43) -/

namespace Sys2Proof.Machine

section
variable {s : State} {addr width : Nat} {use : Nat → Host.Outcome State Fault Refusal}

theorem windowOffset_inside {c : Config} (h : c.base ≤ addr) (h' : addr < c.base + 32) :
    windowOffset c addr = some (addr - c.base) :=
  windowOffset_eq_some.mpr (by omega)

/-- An address outside the 32 bytes of the window (R66). -/
theorem access_outside (h : addr < s.cfg.base ∨ s.cfg.base + 32 ≤ addr) :
    access s addr width use = .fault .outsideWindow := by
  have hoff : windowOffset s.cfg addr = none := if_neg (by omega)
  simp [access, hoff]

/-- A width other than 32 bits (R63). -/
theorem access_wrongWidth (h : s.cfg.base ≤ addr) (h' : addr < s.cfg.base + 32) (hw : width ≠ 4) :
    access s addr width use = .refused .accessWidth := by
  simp [access, windowOffset_inside h h', hw]

/-- An offset that is no multiple of 4 (R63). -/
theorem access_unaligned (h : s.cfg.base ≤ addr) (h' : addr < s.cfg.base + 32)
    (ha : (addr - s.cfg.base) % 4 ≠ 0) : access s addr 4 use = .refused .accessUnaligned := by
  simp [access, windowOffset_inside h h', ha]

end

/-- A host access that is the next event goes through the checks of `access`, whether it reads or writes. -/
theorem step_hostAccess {s : State} {addr n : Nat} {d : Word} {es : List Event} (h : s.busy = true ∨ s.port = [])
    (he : s.env = .read addr n :: es ∨ s.env = .write addr n d :: es) :
    ∃ use, step s = access { s with env := es } addr n use := by
  rcases he with he | he
  · exact ⟨_, step_event h he⟩
  · exact ⟨_, step_event h he⟩

/-- Settles O43: of the three checks of `access` the first that fails stops the step. -/
theorem hostAccessStops : Obligations.HostAccessStops := by
  intro s addr n d es hp he
  obtain ⟨use, hstep⟩ := step_hostAccess hp he
  rw [hstep]
  refine ⟨fun h h' hw => access_wrongWidth h h' hw, ?_, fun h => access_outside h⟩
  rintro h h' rfl ha
  exact access_unaligned h h' ha

end Sys2Proof.Machine

/-! ## The encoding: decoder and encoder (O1 to O5) -/

namespace Sys2Proof

/-! ### The fields of a word -/

/-- Two adjacent fields of a word hold `x` and `y` exactly when the field they make together holds `x ++ y`. -/
theorem extractLsb'_eq_append_iff {m n k start : Nat} {x : BitVec m} {y : BitVec n} {w : BitVec k} :
    w.extractLsb' start (m + n) = x ++ y ↔ w.extractLsb' (start + n) m = x ∧ w.extractLsb' start n = y := by
  rw [← BitVec.extractLsb'_append_extractLsb'_eq_extractLsb' rfl]
  constructor
  · intro h
    have hx := congrArg (BitVec.extractLsb' n m) h
    have hy := congrArg (BitVec.extractLsb' 0 n) h
    simp only [BitVec.extractLsb'_append_eq_left, BitVec.extractLsb'_append_eq_right] at hx hy
    exact ⟨hx, hy⟩
  · rintro ⟨rfl, rfl⟩
    rfl

/-- Fields that fill a word are the word exactly when the word holds them. -/
theorem word_eq_iff {n : Nat} (hn : n = 32) {x : BitVec n} {w : Word} :
    word x = w ↔ w.extractLsb' 0 n = x := by
  subst hn
  rw [word, BitVec.setWidth_eq, BitVec.extractLsb'_eq_self, eq_comm]

/-- A field of one bit. -/
theorem extractLsb'_eq_ofBool_iff {w : Word} {k : Nat} {f : Bool} :
    w.extractLsb' k 1 = BitVec.ofBool f ↔ w.getLsbD k = f := by
  have hbit : w.extractLsb' k 1 = BitVec.ofBool (w.getLsbD k) := by
    ext i hi
    obtain rfl : i = 0 := by omega
    simp
  rw [hbit, BitVec.ofBool_eq_iff_eq]

theorem Mode.ofBits_eq_some_iff {b : BitVec 2} {m : Mode} : Mode.ofBits b = some m ↔ b = m.toBits := by
  revert b
  cases m <;> decide

theorem Mode.ofBits_eq_none_iff {b : BitVec 2} : Mode.ofBits b = none ↔ b = 3 := by
  revert b
  decide

theorem PixelValue.ofBits_eq_some_iff {b : BitVec 2} {v : PixelValue} :
    PixelValue.ofBits b = some v ↔ b = v.toBits := by
  revert b
  cases v <;> decide

theorem PixelValue.ofBits_eq_none_iff {b : BitVec 2} : PixelValue.ofBits b = none ↔ b = 3 := by
  revert b
  decide

theorem coordFits_iff {x : Int} : coordFits x = true ↔ -2048 ≤ x ∧ x ≤ 2047 := by simp [coordFits]

theorem coordFits_toInt (b : BitVec 12) : coordFits b.toInt = true := by
  have hlo := b.le_toInt
  have hhi := b.toInt_lt
  exact coordFits_iff.mpr (by omega)

theorem toInt_ofInt_of_coordFits {x : Int} (h : coordFits x = true) : (BitVec.ofInt 12 x).toInt = x := by
  obtain ⟨hlo, hhi⟩ := coordFits_iff.mp h
  exact BitVec.toInt_ofInt_eq_self (by omega) (by omega) (by omega)

/-! ### Which words the encoder gives, format by format (R82 to R87) -/

section
variable {w : Word} {op : BitVec 4}

theorem formatN_eq_iff : word (op ++ 0#28) = w ↔ opField w = op ∧ w.extractLsb' 0 28 = 0 := by
  rw [word_eq_iff (by rfl), extractLsb'_eq_append_iff]
  rfl

theorem formatB_eq_iff {f : Bool} :
    word (op ++ 0#27 ++ BitVec.ofBool f) = w ↔
      opField w = op ∧ w.extractLsb' 1 27 = 0 ∧ w.getLsbD 0 = f := by
  rw [word_eq_iff (by rfl)]
  simp only [-Nat.reduceAdd, extractLsb'_eq_append_iff, extractLsb'_eq_ofBool_iff, and_assoc]
  rfl

theorem encode_begin_eq_iff {m : Mode} {c : Byte} {v : Bool} :
    encode (.begin m c v) = w ↔ opField w = 0x1 ∧ w.extractLsb' 11 17 = 0 ∧ w.getLsbD 10 = v ∧
      w.extractLsb' 8 2 = m.toBits ∧ w.extractLsb' 0 8 = c := by
  rw [encode, word_eq_iff (by rfl)]
  simp only [-Nat.reduceAdd, extractLsb'_eq_append_iff, extractLsb'_eq_ofBool_iff, and_assoc]
  rfl

theorem encode_setWindow_eq_iff {c0 c1 : BitVec 8} {p0 p1 : BitVec 5} :
    encode (.setWindow c0 c1 p0 p1) = w ↔ opField w = 0x2 ∧ w.extractLsb' 26 2 = 0 ∧
      w.extractLsb' 18 8 = c0 ∧ w.extractLsb' 10 8 = c1 ∧ w.extractLsb' 5 5 = p0 ∧ w.extractLsb' 0 5 = p1 := by
  rw [encode, word_eq_iff (by rfl)]
  simp only [-Nat.reduceAdd, extractLsb'_eq_append_iff, and_assoc]
  rfl

theorem encode_setContrast_eq_iff {v : Byte} :
    encode (.setContrast v) = w ↔ opField w = 0x4 ∧ w.extractLsb' 8 20 = 0 ∧ w.extractLsb' 0 8 = v := by
  rw [encode, word_eq_iff (by rfl)]
  simp only [-Nat.reduceAdd, extractLsb'_eq_append_iff, and_assoc]
  rfl

theorem encode_setPixel_eq_iff {x y : Int} {v : PixelValue} :
    encode (.setPixel x y v) = w ↔ opField w = 0x6 ∧ w.extractLsb' 26 2 = 0 ∧
      w.extractLsb' 24 2 = v.toBits ∧ w.extractLsb' 12 12 = BitVec.ofInt 12 x ∧
      w.extractLsb' 0 12 = BitVec.ofInt 12 y := by
  rw [encode, word_eq_iff (by rfl)]
  simp only [-Nat.reduceAdd, extractLsb'_eq_append_iff, and_assoc]
  rfl

theorem encode_getPixel_eq_iff {x y : Int} :
    encode (.getPixel x y) = w ↔ opField w = 0x7 ∧ w.extractLsb' 26 2 = 0 ∧ w.extractLsb' 24 2 = 0 ∧
      w.extractLsb' 12 12 = BitVec.ofInt 12 x ∧ w.extractLsb' 0 12 = BitVec.ofInt 12 y := by
  have hword : encode (.getPixel x y) =
      word (0x7#4 ++ 0#2 ++ 0#2 ++ BitVec.ofInt 12 x ++ BitVec.ofInt 12 y) := rfl
  rw [hword, word_eq_iff (by rfl)]
  simp only [-Nat.reduceAdd, extractLsb'_eq_append_iff, and_assoc]
  rfl

/-! ### What the decoder answers, format by format -/

/-- A check that refuses a word for `why`, then `d`. -/
theorem check_eq_legal_iff {p : Prop} [Decidable p] {d : Decoded} {why : Illegal} {i : Instr} :
    (if p then d else .illegal why) = .legal i ↔ p ∧ d = .legal i := by
  by_cases h : p <;> simp [h]

theorem check_illegal_iff {p : Prop} [Decidable p] {d : Decoded} {r : Illegal} :
    (∃ why, (if p then d else .illegal r) = .illegal why) ↔ ¬ p ∨ ∃ why, d = .illegal why := by
  by_cases h : p <;> simp [h]

theorem decodeN_eq_legal_iff {i j : Instr} : decodeN i w = .legal j ↔ w.extractLsb' 0 28 = 0 ∧ i = j := by
  rw [decodeN, check_eq_legal_iff, Decoded.legal.injEq]

theorem decodeN_illegal_iff {i : Instr} : (∃ why, decodeN i w = .illegal why) ↔ w.extractLsb' 0 28 ≠ 0 := by
  simp [decodeN, check_illegal_iff]

theorem decodeB_eq_legal_iff {mk : Bool → Instr} {j : Instr} :
    decodeB mk w = .legal j ↔ w.extractLsb' 1 27 = 0 ∧ mk (w.getLsbD 0) = j := by
  rw [decodeB, check_eq_legal_iff, Decoded.legal.injEq]

theorem decodeB_illegal_iff {mk : Bool → Instr} :
    (∃ why, decodeB mk w = .illegal why) ↔ w.extractLsb' 1 27 ≠ 0 := by
  simp [decodeB, check_illegal_iff]

theorem decodeI_eq_legal_iff {j : Instr} :
    decodeI w = .legal j ↔ w.extractLsb' 11 17 = 0 ∧
      ∃ m : Mode, w.extractLsb' 8 2 = m.toBits ∧ .begin m (w.extractLsb' 0 8) (w.getLsbD 10) = j := by
  simp only [decodeI, check_eq_legal_iff, ← Mode.ofBits_eq_some_iff]
  cases Mode.ofBits (w.extractLsb' 8 2) <;> simp

theorem decodeI_illegal_iff :
    (∃ why, decodeI w = .illegal why) ↔ w.extractLsb' 11 17 ≠ 0 ∨ w.extractLsb' 8 2 = 3 := by
  simp only [decodeI, check_illegal_iff, ← Mode.ofBits_eq_none_iff]
  cases Mode.ofBits (w.extractLsb' 8 2) <;> simp

theorem decodeW_eq_legal_iff {j : Instr} :
    decodeW w = .legal j ↔ w.extractLsb' 26 2 = 0 ∧
      .setWindow (w.extractLsb' 18 8) (w.extractLsb' 10 8) (w.extractLsb' 5 5) (w.extractLsb' 0 5) = j := by
  rw [decodeW, check_eq_legal_iff, Decoded.legal.injEq]

theorem decodeW_illegal_iff : (∃ why, decodeW w = .illegal why) ↔ w.extractLsb' 26 2 ≠ 0 := by
  simp [decodeW, check_illegal_iff]

theorem decodeC_eq_legal_iff {j : Instr} :
    decodeC w = .legal j ↔ w.extractLsb' 8 20 = 0 ∧ .setContrast (w.extractLsb' 0 8) = j := by
  rw [decodeC, check_eq_legal_iff, Decoded.legal.injEq]

theorem decodeC_illegal_iff : (∃ why, decodeC w = .illegal why) ↔ w.extractLsb' 8 20 ≠ 0 := by
  simp [decodeC, check_illegal_iff]

theorem decodeSetPixel_eq_legal_iff {j : Instr} :
    decodeSetPixel w = .legal j ↔ w.extractLsb' 26 2 = 0 ∧
      ∃ v : PixelValue, w.extractLsb' 24 2 = v.toBits ∧ .setPixel (xField w) (yField w) v = j := by
  simp only [decodeSetPixel, check_eq_legal_iff, ← PixelValue.ofBits_eq_some_iff]
  cases PixelValue.ofBits (w.extractLsb' 24 2) <;> simp

theorem decodeSetPixel_illegal_iff :
    (∃ why, decodeSetPixel w = .illegal why) ↔ w.extractLsb' 26 2 ≠ 0 ∨ w.extractLsb' 24 2 = 3 := by
  simp only [decodeSetPixel, check_illegal_iff, ← PixelValue.ofBits_eq_none_iff]
  cases PixelValue.ofBits (w.extractLsb' 24 2) <;> simp

theorem decodeGetPixel_eq_legal_iff {j : Instr} :
    decodeGetPixel w = .legal j ↔
      w.extractLsb' 26 2 = 0 ∧ w.extractLsb' 24 2 = 0 ∧ .getPixel (xField w) (yField w) = j := by
  rw [decodeGetPixel, check_eq_legal_iff, check_eq_legal_iff, Decoded.legal.injEq]

theorem decodeGetPixel_illegal_iff :
    (∃ why, decodeGetPixel w = .illegal why) ↔ w.extractLsb' 26 2 ≠ 0 ∨ w.extractLsb' 24 2 ≠ 0 := by
  simp [decodeGetPixel, check_illegal_iff]

/-! ### The opcode map (R89, R90) -/

theorem decode_nop (h : opField w = 0x0) : decode w = decodeN .nop w := by simp [decode, h]
theorem decode_begin (h : opField w = 0x1) : decode w = decodeI w := by simp [decode, h]
theorem decode_setWindow (h : opField w = 0x2) : decode w = decodeW w := by simp [decode, h]
theorem decode_setPower (h : opField w = 0x3) : decode w = decodeB .setPower w := by simp [decode, h]
theorem decode_setContrast (h : opField w = 0x4) : decode w = decodeC w := by simp [decode, h]
theorem decode_setInverted (h : opField w = 0x5) : decode w = decodeB .setInverted w := by simp [decode, h]
theorem decode_setPixel (h : opField w = 0x6) : decode w = decodeSetPixel w := by simp [decode, h]
theorem decode_getPixel (h : opField w = 0x7) : decode w = decodeGetPixel w := by simp [decode, h]
theorem decode_clear (h : opField w = 0x8) : decode w = decodeN .clear w := by simp [decode, h]
theorem decode_flush (h : opField w = 0x9) : decode w = decodeN .flush w := by simp [decode, h]
theorem decode_close (h : opField w = 0xA) : decode w = decodeN .close w := by simp [decode, h]

theorem decode_reserved (h : 0xB ≤ (opField w).toNat) : decode w = .illegal .reservedOpcode := by
  unfold decode
  split
  case h_12 => rfl
  all_goals omega

/-- The rows of the opcode map: eleven opcodes, and the reserved ones. -/
theorem opcode_cases : ∀ op : BitVec 4, op = 0x0 ∨ op = 0x1 ∨ op = 0x2 ∨ op = 0x3 ∨ op = 0x4 ∨ op = 0x5 ∨
    op = 0x6 ∨ op = 0x7 ∨ op = 0x8 ∨ op = 0x9 ∨ op = 0xA ∨ 0xB ≤ op.toNat := by decide

/-! ### Round trips -/

/-- A word of format N is read back by its row of the opcode map. -/
theorem decode_formatN {i : Instr} (hmap : ∀ {w}, opField w = op → decode w = decodeN i w) :
    decode (word (op ++ 0#28)) = .legal i := by
  obtain ⟨hop, hz⟩ := formatN_eq_iff.mp (rfl : word (op ++ 0#28) = _)
  rw [hmap hop]
  exact decodeN_eq_legal_iff.mpr ⟨hz, rfl⟩

theorem decode_formatB {mk : Bool → Instr} {f : Bool} (hmap : ∀ {w}, opField w = op → decode w = decodeB mk w) :
    decode (word (op ++ 0#27 ++ BitVec.ofBool f)) = .legal (mk f) := by
  obtain ⟨hop, hz, hf⟩ := formatB_eq_iff.mp (rfl : word (op ++ 0#27 ++ BitVec.ofBool f) = _)
  rw [hmap hop]
  exact decodeB_eq_legal_iff.mpr ⟨hz, by rw [hf]⟩

/-- A legal word of format N is its opcode and zeros. -/
theorem word_of_decodeN {i j : Instr} (hop : opField w = op) (hd : decodeN i w = .legal j) :
    i = j ∧ word (op ++ 0#28) = w := by
  obtain ⟨hz, hij⟩ := decodeN_eq_legal_iff.mp hd
  exact ⟨hij, formatN_eq_iff.mpr ⟨hop, hz⟩⟩

theorem word_of_decodeB {mk : Bool → Instr} {j : Instr} (hop : opField w = op) (hd : decodeB mk w = .legal j) :
    mk (w.getLsbD 0) = j ∧ word (op ++ 0#27 ++ BitVec.ofBool (w.getLsbD 0)) = w := by
  obtain ⟨hz, hj⟩ := decodeB_eq_legal_iff.mp hd
  exact ⟨hj, formatB_eq_iff.mpr ⟨hop, hz, rfl⟩⟩

end

/-- Settles O2: the fields of the encoded word are the operands, and the decoder reads them back. -/
theorem decodeOfEncode : Obligations.DecodeOfEncode := by
  intro i hi
  cases i with
  | nop => exact decode_formatN decode_nop
  | begin m c v =>
    obtain ⟨hop, hz, hv, hm, hc⟩ := encode_begin_eq_iff.mp (rfl : encode (.begin m c v) = _)
    rw [decode_begin hop]
    exact decodeI_eq_legal_iff.mpr ⟨hz, m, hm, by rw [hc, hv]⟩
  | setWindow c0 c1 p0 p1 =>
    obtain ⟨hop, hz, h0, h1, hp, hq⟩ := encode_setWindow_eq_iff.mp (rfl : encode (.setWindow c0 c1 p0 p1) = _)
    rw [decode_setWindow hop]
    exact decodeW_eq_legal_iff.mpr ⟨hz, by rw [h0, h1, hp, hq]⟩
  | setPower f => exact decode_formatB decode_setPower
  | setContrast v =>
    obtain ⟨hop, hz, hv⟩ := encode_setContrast_eq_iff.mp (rfl : encode (.setContrast v) = _)
    rw [decode_setContrast hop]
    exact decodeC_eq_legal_iff.mpr ⟨hz, by rw [hv]⟩
  | setInverted f => exact decode_formatB decode_setInverted
  | setPixel x y v =>
    obtain ⟨hx, hy⟩ := Bool.and_eq_true_iff.mp hi
    obtain ⟨hop, hz, hv, hxf, hyf⟩ := encode_setPixel_eq_iff.mp (rfl : encode (.setPixel x y v) = _)
    rw [decode_setPixel hop]
    exact decodeSetPixel_eq_legal_iff.mpr ⟨hz, v, hv,
      by rw [xField, yField, hxf, hyf, toInt_ofInt_of_coordFits hx, toInt_ofInt_of_coordFits hy]⟩
  | getPixel x y =>
    obtain ⟨hx, hy⟩ := Bool.and_eq_true_iff.mp hi
    obtain ⟨hop, hz, hv, hxf, hyf⟩ := encode_getPixel_eq_iff.mp (rfl : encode (.getPixel x y) = _)
    rw [decode_getPixel hop]
    exact decodeGetPixel_eq_legal_iff.mpr ⟨hz, hv,
      by rw [xField, yField, hxf, hyf, toInt_ofInt_of_coordFits hx, toInt_ofInt_of_coordFits hy]⟩
  | clear => exact decode_formatN decode_clear
  | flush => exact decode_formatN decode_flush
  | close => exact decode_formatN decode_close

theorem coordFits_fields (w : Word) : (coordFits (xField w) && coordFits (yField w)) = true :=
  Bool.and_eq_true_iff.mpr ⟨coordFits_toInt _, coordFits_toInt _⟩

/-- Settles O3: opcode by opcode, the fields the decoder took the operands from fill the word. -/
theorem encodeOfDecode : Obligations.EncodeOfDecode := by
  intro w i hd
  obtain h | h | h | h | h | h | h | h | h | h | h | h := opcode_cases (opField w)
  · obtain ⟨rfl, hw⟩ := word_of_decodeN h (decode_nop h ▸ hd)
    exact ⟨rfl, hw⟩
  · rw [decode_begin h] at hd
    obtain ⟨hz, m, hm, rfl⟩ := decodeI_eq_legal_iff.mp hd
    exact ⟨rfl, encode_begin_eq_iff.mpr ⟨h, hz, rfl, hm, rfl⟩⟩
  · rw [decode_setWindow h] at hd
    obtain ⟨hz, rfl⟩ := decodeW_eq_legal_iff.mp hd
    exact ⟨rfl, encode_setWindow_eq_iff.mpr ⟨h, hz, rfl, rfl, rfl, rfl⟩⟩
  · obtain ⟨rfl, hw⟩ := word_of_decodeB h (decode_setPower h ▸ hd)
    exact ⟨rfl, hw⟩
  · rw [decode_setContrast h] at hd
    obtain ⟨hz, rfl⟩ := decodeC_eq_legal_iff.mp hd
    exact ⟨rfl, encode_setContrast_eq_iff.mpr ⟨h, hz, rfl⟩⟩
  · obtain ⟨rfl, hw⟩ := word_of_decodeB h (decode_setInverted h ▸ hd)
    exact ⟨rfl, hw⟩
  · rw [decode_setPixel h] at hd
    obtain ⟨hz, v, hv, rfl⟩ := decodeSetPixel_eq_legal_iff.mp hd
    exact ⟨coordFits_fields w,
      encode_setPixel_eq_iff.mpr ⟨h, hz, hv, BitVec.ofInt_toInt.symm, BitVec.ofInt_toInt.symm⟩⟩
  · rw [decode_getPixel h] at hd
    obtain ⟨hz, hv, rfl⟩ := decodeGetPixel_eq_legal_iff.mp hd
    exact ⟨coordFits_fields w,
      encode_getPixel_eq_iff.mpr ⟨h, hz, hv, BitVec.ofInt_toInt.symm, BitVec.ofInt_toInt.symm⟩⟩
  · obtain ⟨rfl, hw⟩ := word_of_decodeN h (decode_clear h ▸ hd)
    exact ⟨rfl, hw⟩
  · obtain ⟨rfl, hw⟩ := word_of_decodeN h (decode_flush h ▸ hd)
    exact ⟨rfl, hw⟩
  · obtain ⟨rfl, hw⟩ := word_of_decodeN h (decode_close h ▸ hd)
    exact ⟨rfl, hw⟩
  · simp [decode_reserved h] at hd

/-- Settles O1: decoder and encoder run on each word of R96. -/
theorem workedEncodingsDecode : Obligations.WorkedEncodingsDecode := by
  unfold Obligations.WorkedEncodingsDecode
  decide

/-! ### The words of R94 -/

/-- The field of a coordinate is its low 12 bits. -/
theorem setWidth_ofInt_coord (x : Int) : (BitVec.ofInt 12 x).setWidth 32 = BitVec.ofInt 32 x &&& 0xFFF := by
  have hlow (n : Nat) : n &&& 0xFFF = n % 4096 := Nat.and_two_pow_sub_one_eq_mod n 12
  apply BitVec.eq_of_toNat_eq
  rw [BitVec.toNat_setWidth, BitVec.toNat_and, BitVec.toNat_ofInt, BitVec.toNat_ofInt,
    show (0xFFF : Word).toNat = 0xFFF from rfl, hlow]
  omega

/-- Settles O5: a field followed by `n` bits stands `n` places to the left. -/
theorem syntaxWordFormulas : Obligations.SyntaxWordFormulas := by
  unfold Obligations.SyntaxWordFormulas
  simp only [encode, BitVec.setWidth_append_eq_shiftLeft_setWidth_or, setWidth_ofInt_coord]
  simp [BitVec.shiftLeft_or_distrib, ← BitVec.shiftLeft_add]

end Sys2Proof

namespace Sys2Proof.Machine

/-- A fresh CMD write, when none is held, is accepted. -/
theorem step_acceptsFresh {s : State} {w : Word} {es : List Event} (hq : s.seq = none) (hp : s.port = [])
    (he : s.env = .write s.cfg.base 4 w :: es) : step s = accept w { s with env := es } := by
  have hb : State.busy { s with env := es } = false := by simp [State.busy, hq]
  calc step s = hostWrite s.cfg.base 4 w { s with env := es } := step_event (.inr hp) he
    _ = accept w { s with env := es } := by rw [hostWrite_cmd { s with env := es } w, hb]; rfl

/-- Settles O4: opcode by opcode, and `accept` refuses an illegal word before every other check. -/
theorem illegalWordsCompleteWithIllegalCommand : Obligations.IllegalWordsCompleteWithIllegalCommand := by
  refine ⟨fun w => ?_, fun s w es why hd hq hp he => ?_⟩
  · obtain h | h | h | h | h | h | h | h | h | h | h | h := opcode_cases (opField w)
    · simp [decode_nop h, decodeN_illegal_iff, h]
    · simp [decode_begin h, decodeI_illegal_iff, h]
    · simp [decode_setWindow h, decodeW_illegal_iff, h]
    · simp [decode_setPower h, decodeB_illegal_iff, h]
    · simp [decode_setContrast h, decodeC_illegal_iff, h]
    · simp [decode_setInverted h, decodeB_illegal_iff, h]
    · simp [decode_setPixel h, decodeSetPixel_illegal_iff, h]
    · simp [decode_getPixel h, decodeGetPixel_illegal_iff, h]
    · simp [decode_clear h, decodeN_illegal_iff, h]
    · simp [decode_flush h, decodeN_illegal_iff, h]
    · simp [decode_close h, decodeN_illegal_iff, h]
    · simp [decode_reserved h, h]
  · rw [step_acceptsFresh hq hp he, accept_illegal hd, State.complete, ← hq]

end Sys2Proof.Machine

/-! ## The assembler (O6) -/

namespace Sys2Proof.Machine

/-! ### Operand fields -/

theorem unsignedField_eq_none_iff {n : Nat} {v : Int} : unsignedField n v = none ↔ ¬ (0 ≤ v ∧ v < 2 ^ n) := by
  simp [unsignedField]

/-- The field of an accepted operand holds its value. -/
theorem unsignedField_eq_some_iff {n : Nat} {v : Int} {b : BitVec n} :
    unsignedField n v = some b ↔ (b.toNat : Int) = v := by
  simp only [unsignedField, Option.ite_none_right_eq_some, Option.some.injEq]
  constructor
  · rintro ⟨⟨hlo, hhi⟩, rfl⟩
    rw [BitVec.toNat_ofInt, Int.toNat_of_nonneg (Int.emod_nonneg _ (by positivity))]
    exact Int.emod_eq_of_lt hlo (by exact_mod_cast hhi)
  · rintro rfl
    exact ⟨⟨by positivity, by exact_mod_cast b.isLt⟩, by simp⟩

/-- A pixel-value operand is the number of the value it stands for (R9). -/
theorem pixelOperand_eq_some_iff {v : Int} {p : PixelValue} :
    pixelOperand v = some p ↔ (p.toBits.toNat : Int) = v := by
  simp [pixelOperand, Option.bind_eq_some_iff, unsignedField_eq_some_iff, PixelValue.ofBits_eq_some_iff]

theorem pixelOperand_eq_none_iff {v : Int} : pixelOperand v = none ↔ ¬ (v = 0 ∨ v = 1 ∨ v = 2) := by
  simp only [Option.eq_none_iff_forall_ne_some, ne_eq, pixelOperand_eq_some_iff]
  constructor
  · rintro h (rfl | rfl | rfl)
    · exact h .off rfl
    · exact h .on rfl
    · exact h .invert rfl
  · rintro h p rfl
    cases p <;> simp [PixelValue.toBits] at h

/-! ### Statements with operands -/

section
variable {x y v c0 c1 p0 p1 : Int} {i : Instr}

theorem assemble_begin_eq_none_iff {m : Mode} {e : Option Bool} :
    assemble (.begin m v e) = none ↔ ¬ (0 ≤ v ∧ v ≤ 255) := by
  rw [assemble, Option.map_eq_none_iff, unsignedField_eq_none_iff]
  omega

theorem assemble_begin_eq_some {m : Mode} {e : Option Bool} (h : assemble (.begin m v e) = some i) :
    ∃ c : BitVec 8, (c.toNat : Int) = v ∧ i = .begin m c (decide (e = some true)) := by
  obtain ⟨c, hc, rfl⟩ := Option.map_eq_some_iff.mp h
  have hext : e.getD false = decide (e = some true) := by rcases e with _ | _ | _ <;> rfl
  exact ⟨c, unsignedField_eq_some_iff.mp hc, by rw [hext]⟩

theorem assemble_setContrast_eq_none_iff : assemble (.setContrast v) = none ↔ ¬ (0 ≤ v ∧ v ≤ 255) := by
  rw [assemble, Option.map_eq_none_iff, unsignedField_eq_none_iff]
  omega

theorem assemble_setContrast_eq_some (h : assemble (.setContrast v) = some i) :
    ∃ c : BitVec 8, (c.toNat : Int) = v ∧ i = .setContrast c := by
  obtain ⟨c, hc, rfl⟩ := Option.map_eq_some_iff.mp h
  exact ⟨c, unsignedField_eq_some_iff.mp hc, rfl⟩

/-- SET_WINDOW is refused exactly when one of its four operands is. -/
theorem assemble_setWindow_eq_none_iff_field : assemble (.setWindow c0 c1 p0 p1) = none ↔
    unsignedField 8 c0 = none ∨ unsignedField 8 c1 = none ∨ unsignedField 5 p0 = none ∨
      unsignedField 5 p1 = none := by
  rw [assemble]
  split
  next ha hb hp hq => simp [ha, hb, hp, hq]
  next hrefused =>
    refine iff_of_true rfl ?_
    by_contra hall
    simp only [not_or, ← ne_eq, Option.ne_none_iff_exists'] at hall
    obtain ⟨⟨a, ha⟩, ⟨b, hb⟩, ⟨p, hp⟩, ⟨q, hq⟩⟩ := hall
    exact hrefused a b p q ha hb hp hq

theorem assemble_setWindow_eq_none_iff : assemble (.setWindow c0 c1 p0 p1) = none ↔
    ¬ ((0 ≤ c0 ∧ c0 ≤ 255) ∧ (0 ≤ c1 ∧ c1 ≤ 255) ∧ (0 ≤ p0 ∧ p0 ≤ 31) ∧ (0 ≤ p1 ∧ p1 ≤ 31)) := by
  simp only [assemble_setWindow_eq_none_iff_field, unsignedField_eq_none_iff]
  omega

theorem assemble_setWindow_eq_some (h : assemble (.setWindow c0 c1 p0 p1) = some i) :
    ∃ (a b : BitVec 8) (p q : BitVec 5),
      ((a.toNat : Int) = c0 ∧ (b.toNat : Int) = c1 ∧ (p.toNat : Int) = p0 ∧ (q.toNat : Int) = p1) ∧
        i = .setWindow a b p q := by
  rw [assemble] at h
  split at h
  next a b p q ha hb hp hq =>
    rw [unsignedField_eq_some_iff] at ha hb hp hq
    exact ⟨a, b, p, q, ⟨ha, hb, hp, hq⟩, (Option.some.inj h).symm⟩
  next => simp at h

/-- Both coordinates fit their fields (R87). -/
theorem coordsFit_iff : (coordFits x && coordFits y) = true ↔
    (-2048 ≤ x ∧ x ≤ 2047) ∧ (-2048 ≤ y ∧ y ≤ 2047) := by
  rw [Bool.and_eq_true, coordFits_iff, coordFits_iff]

theorem assemble_setPixel_eq_none_iff : assemble (.setPixel x y v) = none ↔
    ¬ ((-2048 ≤ x ∧ x ≤ 2047) ∧ (-2048 ≤ y ∧ y ≤ 2047) ∧ (v = 0 ∨ v = 1 ∨ v = 2)) := by
  rw [assemble, ← and_assoc, ← coordsFit_iff, not_and, ite_eq_right_iff, Option.map_eq_none_iff,
    pixelOperand_eq_none_iff]

theorem assemble_setPixel_eq_some (h : assemble (.setPixel x y v) = some i) :
    (coordFits x && coordFits y) = true ∧
      i = .setPixel x y (if v = 0 then .off else if v = 1 then .on else .invert) := by
  rw [assemble, Option.ite_none_right_eq_some, Option.map_eq_some_iff] at h
  obtain ⟨hfit, p, hp, rfl⟩ := h
  obtain rfl := pixelOperand_eq_some_iff.mp hp
  exact ⟨hfit, by cases p <;> rfl⟩

theorem assemble_getPixel_eq_none_iff : assemble (.getPixel x y) = none ↔
    ¬ ((-2048 ≤ x ∧ x ≤ 2047) ∧ (-2048 ≤ y ∧ y ≤ 2047)) := by
  rw [assemble, ← coordsFit_iff]
  simp

theorem assemble_getPixel_eq_some (h : assemble (.getPixel x y) = some i) :
    (coordFits x && coordFits y) = true ∧ i = .getPixel x y := by
  rw [assemble, Option.ite_none_right_eq_some] at h
  obtain ⟨hfit, hi⟩ := h
  exact ⟨hfit, (Option.some.inj hi).symm⟩

end

/-- What an assembler accepts has a word. -/
theorem wf_of_assemble {a : Asm} {i : Instr} (h : assemble a = some i) : i.wf = true := by
  cases a with
  | begin m v e =>
    obtain ⟨c, -, rfl⟩ := assemble_begin_eq_some h
    rfl
  | setContrast v =>
    obtain ⟨c, -, rfl⟩ := assemble_setContrast_eq_some h
    rfl
  | setWindow c0 c1 p0 p1 =>
    obtain ⟨a, b, p, q, -, rfl⟩ := assemble_setWindow_eq_some h
    rfl
  | setPixel x y v =>
    obtain ⟨hfit, rfl⟩ := assemble_setPixel_eq_some h
    exact hfit
  | getPixel x y =>
    obtain ⟨hfit, rfl⟩ := assemble_getPixel_eq_some h
    exact hfit
  | _ => exact Option.some.inj h ▸ rfl

/-- Settles O6: statement by statement, from what the fields of the operands accept. -/
theorem assemblerRefusals : Obligations.AssemblerRefusals :=
  ⟨⟨rfl, rfl, rfl, rfl, fun _ => rfl, fun _ => rfl, rfl, rfl, rfl, rfl⟩,
    fun _ _ _ => assemble_begin_eq_none_iff, fun _ => assemble_setContrast_eq_none_iff,
    fun _ _ _ _ => assemble_setWindow_eq_none_iff, fun _ _ _ => assemble_setPixel_eq_none_iff,
    fun _ _ => assemble_getPixel_eq_none_iff, fun _ _ _ _ => assemble_begin_eq_some,
    fun _ _ => assemble_setContrast_eq_some, fun _ _ _ _ _ => assemble_setWindow_eq_some,
    fun _ _ _ _ h => (assemble_setPixel_eq_some h).2, fun _ _ _ h => (assemble_getPixel_eq_some h).2,
    fun _ _ => wf_of_assemble⟩

end Sys2Proof.Machine

/-! ## Replies at hand: a command of transactions run to its end (O19 to O22, O25, O28) -/

namespace Sys2Proof.Machine

/-! ### A command that waits for the answer to a call -/

/-- The state in which the command `i`, accepted in `s`, has issued `xs` and waits at position `k` of its list. -/
def State.awaiting (s : State) (i : Instr) (k : Nat) (xs : List Xact) : State :=
  { s with seq := some ⟨i, k, .busCall⟩, trace := s.trace ++ xs }

theorem items_awaiting (s : State) (i : Instr) (k : Nat) (xs : List Xact) :
    items (s.awaiting i k xs) i = items s i := items_congr rfl rfl rfl rfl i

/-- The sequencer plays no part in a completion, which clears it. -/
theorem finish_with_seq (i : Instr) (s : State) (q : Option Running) :
    finish i { s with seq := q } = finish i s := by cases i <;> rfl

theorem fail_with_seq (i : Instr) (s : State) (q : Option Running) :
    fail i { s with seq := q } = fail i s := by cases i <;> rfl

/-- From an idle block to an idle block the sequencer is as it was. -/
theorem State.eq_with_seq {s t : State} (hs : s.seq = none) (ht : t.seq = none) : t = { t with seq := s.seq } := by
  rw [hs, ← ht]

section
variable {s : State} {i : Instr} {k : Nat} {ys : List Xact}

theorem serve_ok (es : List Event) :
    serve (.reply .ok :: es) (s.awaiting i k ys) = serve es (advance ⟨i, k, .busCall⟩ (s.awaiting i k ys)) := rfl

theorem serve_err (es : List Event) :
    serve (.reply .err :: es) (s.awaiting i k ys) = fail i { s with trace := s.trace ++ ys, env := es } :=
  calc serve (.reply .err :: es) (s.awaiting i k ys)
    _ = serve es (fail i (s.awaiting i k ys)) := rfl
    _ = fail i { s.awaiting i k ys with env := es } := by rw [serve_idle (fail_seq _ _), fail_with_env]
    _ = fail i { s with trace := s.trace ++ ys, env := es } := fail_with_seq i { s with trace := _, env := es } _

theorem advance_awaiting_tx {x : Xact} (h : (items s i)[k + 1]? = some (.tx x)) (hx : x ≠ .reset) :
    advance ⟨i, k, .busCall⟩ (s.awaiting i k ys) = s.awaiting i (k + 1) (ys ++ [x]) := by
  rw [advance_tx ((items_awaiting s i k ys).symm ▸ h) hx]
  simp [State.awaiting]

theorem advance_awaiting_last (h : (items s i).length = k + 1) :
    advance ⟨i, k, .busCall⟩ (s.awaiting i k ys) = finish i { s with trace := s.trace ++ ys } := by
  rw [advance_last ((items_awaiting s i k ys).symm ▸ h)]
  exact finish_with_seq i { s with trace := s.trace ++ ys } _

/-! Behind position `k` only the transactions `xs`, all with a result, are left. -/

variable {xs : List Xact} (hxs : (items s i).drop (k + 1) = xs.map .tx) (hr : .reset ∉ xs)
include hxs hr

/-- Each OK issues the next transaction (R190). -/
theorem serve_oks {j : Nat} (hj : j ≤ xs.length) (es : List Event) :
    serve (List.replicate j (.reply .ok) ++ es) (s.awaiting i k ys) =
      serve es (s.awaiting i (k + j) (ys ++ xs.take j)) := by
  induction j generalizing es with
  | zero => simp
  | succ j ih =>
    have hnext : (items s i)[k + j + 1]? = some (.tx xs[j]) := by
      rw [Nat.add_right_comm, ← List.getElem?_drop, hxs]
      simp
    have hne : xs[j] ≠ .reset := fun h => hr (h ▸ List.getElem_mem _)
    rw [List.replicate_succ', List.append_assoc, ih (by omega), List.singleton_append, serve_ok,
      advance_awaiting_tx hnext hne, List.append_assoc, List.take_append_getElem, Nat.add_assoc]

/-- OK to each call that is left completes the command. -/
theorem serve_all_ok (hk : k < (items s i).length) (es : List Event) :
    serve (List.replicate (xs.length + 1) (.reply .ok) ++ es) (s.awaiting i k ys) =
      finish i { s with trace := s.trace ++ (ys ++ xs), env := es } := by
  have hlen : (items s i).length = k + xs.length + 1 := by
    have := congrArg List.length hxs
    simp only [List.length_drop, List.length_map] at this
    omega
  rw [List.replicate_succ', List.append_assoc, serve_oks hxs hr le_rfl, List.singleton_append, serve_ok,
    advance_awaiting_last hlen, serve_idle (finish_seq _ _), finish_with_env, List.take_length]

/-- ERR to a call ends the command there. -/
theorem serve_oks_err {j : Nat} (hj : j ≤ xs.length) (es : List Event) :
    serve (List.replicate j (.reply .ok) ++ .reply .err :: es) (s.awaiting i k ys) =
      fail i { s with trace := s.trace ++ (ys ++ xs.take j), env := es } := by
  rw [serve_oks hxs hr hj, serve_err]

end

/-! ### A command whose list is transactions alone -/

section
variable {s : State} {i : Instr} (hs : s.ready) (hl : launchable s i = true) {x : Xact} {xs : List Xact}
  (hi : items s i = (x :: xs).map .tx) (hr : .reset ∉ x :: xs) {es : List Event}
include hs hl hi hr

/-- The first transaction is issued, and the replies at hand are served. -/
theorem exec_transactions : exec i s = .next (serve s.env (s.awaiting i 0 [x])) := by
  obtain ⟨hq, ho⟩ := hs
  obtain ⟨hx, -⟩ := not_or.mp (List.mem_cons.not.mp hr)
  rw [exec_of_launchable hq ho hl, launch, hi, List.map_cons, issue_tx (Ne.symm hx)]
  rfl

/-- OK to every call completes the command. -/
theorem exec_transactions_ok (he : s.env = List.replicate (xs.length + 1) (.reply .ok) ++ es) :
    exec i s = .next (finish i { s with trace := s.trace ++ x :: xs, env := es }) := by
  have hxs : (items s i).drop 1 = xs.map .tx := by rw [hi]; rfl
  rw [exec_transactions hs hl hi hr, he,
    serve_all_ok hxs (fun h => hr (List.mem_cons_of_mem _ h)) (by simp [hi]), List.singleton_append]

/-- ERR to the call of a transaction ends the command there. -/
theorem exec_transactions_err {j : Nat} (hj : j ≤ xs.length)
    (he : s.env = List.replicate j (.reply .ok) ++ .reply .err :: es) :
    exec i s = .next (fail i { s with trace := s.trace ++ x :: xs.take j, env := es }) := by
  have hxs : (items s i).drop 1 = xs.map .tx := by rw [hi]; rfl
  rw [exec_transactions hs hl hi hr, he,
    serve_oks_err hxs (fun h => hr (List.mem_cons_of_mem _ h)) hj, List.singleton_append]

/-- With no further reply at hand the command waits for the answer to a call. -/
theorem exec_transactions_waits {j : Nat} (hj : j ≤ xs.length) (hes : noReply es = true)
    (he : s.env = List.replicate j (.reply .ok) ++ es) :
    exec i s = .next { s with
      seq := some ⟨i, j, .busCall⟩, trace := s.trace ++ x :: xs.take j, env := es } := by
  have hxs : (items s i).drop 1 = xs.map .tx := by rw [hi]; rfl
  rw [exec_transactions hs hl hi hr, he, serve_oks hxs (fun h => hr (List.mem_cons_of_mem _ h)) hj,
    serve_noReply hes, Nat.zero_add, List.singleton_append]
  rfl

end

end Sys2Proof.Machine

/-! ## The driver commands but FLUSH, their gate, and ERR (O19 to O23, O25) -/

namespace Sys2Proof.Machine

/-! ### The gate (R111) -/

theorem State.isOn_iff {s : State} : s.isOn = true ↔ s.ctrlState = .active ∨ s.ctrlState = .sleeping := by
  simp [State.isOn]

theorem State.isOn_eq_false_iff {s : State} :
    s.isOn = false ↔ s.ctrlState = .uninitialized ∨ s.ctrlState = .poweredOff := by
  cases h : s.ctrlState <;> simp [State.isOn, h]

theorem driverGate_of_isOn_eq_false {i : Instr} {s : State} (h : s.isOn = false) (hi : i ≠ .setPower true) :
    driverGate i s = false :=
  Bool.eq_false_iff.mpr fun hg => Bool.eq_false_iff.mp h (isOn_of_driverGate hg hi)

/-- Where the panel is off the gate refuses every driver command but SET_POWER ON, and nothing else is written. -/
theorem exec_driver_refused {i : Instr} {s : State} (hs : s.ready) (hd : isDriver i = true) (h : s.isOn = false)
    (hi : i ≠ .setPower true) : exec i s = .next { s with code := .invalidState, cause := .ok } := by
  have hrefused (run : State → State) : whenDriven i s run = { s with code := .invalidState, cause := .ok } := by
    rw [whenDriven_gated hs.1 hs.2 (driverGate_of_isOn_eq_false h hi), State.complete, ← hs.1]
  cases i with
  | setWindow | setPower | setContrast | setInverted | flush => exact congrArg _ (hrefused _)
  | nop | begin | setPixel | getPixel | clear | close => simp [isDriver] at hd

/-- What a driver command that passes the gate comes to: it completes at once, OK or OUT_OF_RANGE, or is launched. -/
theorem driver_cases {i : Instr} {s t : State} (hs : s.ready) (hd : isDriver i = true) (hg : driverGate i s = true)
    (ht : exec i s = .next t) : t = launch i s ∨ t = s.complete .ok .ok ∨ t = s.complete .outOfRange .ok := by
  have hpassed (run : State → State) : whenDriven i s run = run s := whenDriven_passed hs.1 hs.2 hg run
  cases i with
  | setContrast | setInverted | flush => cases ht; exact .inl (hpassed _)
  | setWindow =>
    cases ht
    rw [hpassed]
    split
    · exact .inl rfl
    · exact .inr (.inr rfl)
  | setPower =>
    cases ht
    rw [hpassed]
    split
    · exact .inr (.inl rfl)
    · exact .inl rfl
  | nop | begin | setPixel | getPixel | clear | close => simp [isDriver] at hd

theorem finish_code (i : Instr) (s : State) : (finish i s).code = .ok := by cases i <;> rfl

theorem fail_code_ne_invalidState (i : Instr) (s : State) : (fail i s).code ≠ .invalidState := by
  cases i <;> exact nofun

/-- A command that ran to its end has no INVALID_STATE: success is OK, and no failure writes that code. -/
theorem Ran.code_ne_invalidState {i : Instr} {s t : State} (h : Ran i s t) (hq : t.seq = none) :
    t.code ≠ .invalidState := by
  obtain ⟨xs, es, q, ⟨rfl, r, rfl, -⟩ | rfl | rfl⟩ := h
  · simp at hq
  · rw [finish_code]
    exact nofun
  · exact fail_code_ne_invalidState i _

/-- Settles O23: the gate refuses, or lets through to one of three ends, none of them INVALID_STATE. -/
theorem driverGateByState : Obligations.DriverGateByState := by
  refine fun s i hd hs => ⟨fun hoff hi => exec_driver_refused hs hd (State.isOn_eq_false_iff.mpr hoff) hi,
    fun hon t ht hq => ?_⟩
  have hg : driverGate i s = true := by
    rcases hon with h | h | rfl
    · exact driverGate_of_isOn (State.isOn_iff.mpr (.inl h)) i
    · exact driverGate_of_isOn (State.isOn_iff.mpr (.inr h)) i
    · exact driverGate_setPowerOn s
  rcases driver_cases hs hd hg ht with rfl | rfl | rfl
  · exact (launch_ran i s).code_ne_invalidState hq
  · exact nofun
  · exact nofun

/-! ### Commands of one transaction -/

section
variable {i : Instr} {s : State} {x : Xact} {es : List Event} (hs : s.ready) (hl : launchable s i = true)
  (hi : items s i = [.tx x]) (hx : x ≠ .reset)
include hs hl hi hx

/-- OK at hand completes a command of one transaction, which leaves the sequencer idle, as it was. -/
theorem exec_oneTransaction_ok (he : s.env = .reply .ok :: es) :
    exec i s = .next { finish i { s with trace := s.trace ++ [x], env := es } with seq := s.seq } := by
  rw [exec_transactions_ok (xs := []) hs hl hi (by simpa using hx.symm) he]
  exact congrArg _ (State.eq_with_seq hs.1 (finish_seq ..))

/-- So does ERR, as a failure. -/
theorem exec_oneTransaction_err (he : s.env = .reply .err :: es) :
    exec i s = .next { fail i { s with trace := s.trace ++ [x], env := es } with seq := s.seq } := by
  rw [exec_transactions_err (xs := []) hs hl hi (by simpa using hx.symm) (Nat.zero_le _) he]
  exact congrArg _ (State.eq_with_seq hs.1 (fail_seq ..))

/-- With no answer at hand the call is outstanding. -/
theorem exec_oneTransaction_waits (he : noReply s.env = true) :
    exec i s = .next { s with seq := some ⟨i, 0, .busCall⟩, trace := s.trace ++ [x] } :=
  exec_transactions_waits (xs := []) hs hl hi (by simpa using hx.symm) (Nat.zero_le _) he rfl

end

/-- Settles O21: the gate, then a command of one transaction. -/
theorem setContrastFollowsItsRule : Obligations.SetContrastFollowsItsRule :=
  fun _ _ _ hs => ⟨fun hoff => exec_driver_refused hs rfl hoff nofun,
    fun hon he => exec_oneTransaction_ok hs hon rfl nofun he,
    fun hon he => exec_oneTransaction_err hs hon rfl nofun he,
    fun hon he => exec_oneTransaction_waits hs hon rfl nofun he⟩

/-- Settles O22: the gate, then a command of one transaction. -/
theorem setInvertedFollowsItsRule : Obligations.SetInvertedFollowsItsRule := by
  rintro s flag b es hs rfl
  exact ⟨fun hoff => exec_driver_refused hs rfl hoff nofun,
    fun hon he => exec_oneTransaction_ok hs hon rfl nofun he,
    fun hon he => exec_oneTransaction_err hs hon rfl nofun he,
    fun hon he => exec_oneTransaction_waits hs hon rfl nofun he⟩

/-! ### SET_POWER (R122) -/

/-- SET_POWER ON before any BEGIN completes OK with no transaction. -/
theorem exec_setPowerOn_uninitialized {s : State} (hs : s.ready) (h : s.ctrlState = .uninitialized) :
    exec (.setPower true) s = .next { s with code := .ok, cause := .ok } := by
  rw [exec, execSetPower, whenDriven_passed hs.1 hs.2 (driverGate_setPowerOn s), if_pos (by simp [h]),
    State.complete, ← hs.1]

theorem launchable_setPowerOn {s : State} (h : s.ctrlState ≠ .uninitialized) :
    launchable s (.setPower true) = true :=
  launchable_setPower (driverGate_setPowerOn s) (by simpa using h)

theorem launchable_setPowerOff {s : State} (h : s.isOn = true) : launchable s (.setPower false) = true := by
  simpa [launchable] using h

/-- Settles O20: the rows without a transaction, then those of SET_POWER ON and OFF with theirs. -/
theorem setPowerFollowsItsTable : Obligations.SetPowerFollowsItsTable := by
  intro s es hs
  have refused (h : s.ctrlState = .uninitialized ∨ s.ctrlState = .poweredOff) :=
    exec_driver_refused (i := .setPower false) hs rfl (State.isOn_eq_false_iff.mpr h) nofun
  have off (h : s.ctrlState = .active ∨ s.ctrlState = .sleeping) := launchable_setPowerOff (State.isOn_iff.mpr h)
  exact ⟨fun h => ⟨exec_setPowerOn_uninitialized hs h, refused (.inl h)⟩, fun h => refused (.inr h),
    fun h he => exec_oneTransaction_ok hs (launchable_setPowerOn h) rfl nofun he,
    fun h he => exec_oneTransaction_err hs (launchable_setPowerOn h) rfl nofun he,
    fun h he => exec_oneTransaction_ok hs (off h) rfl nofun he,
    fun h he => exec_oneTransaction_err hs (off h) rfl nofun he,
    fun h he => exec_oneTransaction_waits hs (launchable_setPowerOn h) rfl nofun he,
    fun h he => exec_oneTransaction_waits hs (off h) rfl nofun he⟩

/-! ### SET_WINDOW (R113, R120, R121) -/

/-- The bounds of R120. -/
theorem inWindow_iff {c : Config} {w : Window} : inWindow c w = true ↔
    w.c0.toNat ≤ w.c1.toNat ∧ w.c1.toNat < c.width ∧ w.p0.toNat ≤ w.p1.toNat ∧ w.p1.toNat < c.pages := by
  simp [inWindow, and_assoc]

theorem exec_setWindow_outOfRange {s : State} {c0 c1 : BitVec 8} {p0 p1 : BitVec 5} (hs : s.ready)
    (hon : s.isOn = true) (hw : inWindow s.cfg ⟨c0, c1, p0, p1⟩ = false) :
    exec (.setWindow c0 c1 p0 p1) s = .next { s with code := .outOfRange, cause := .ok } := by
  rw [exec, execSetWindow, whenDriven_passed hs.1 hs.2 (driverGate_of_isOn hon _), if_neg (by simp [hw]),
    State.raise_eq, State.complete, ← hs.1]

/-- Settles O19: outside the bounds nothing is issued, inside them SET_WINDOW is a command of one transaction. -/
theorem setWindowFollowsItsRule : Obligations.SetWindowFollowsItsRule := by
  refine fun s c0 c1 p0 p1 hs hon => ⟨fun hout => ?_, fun hin bs es hbs => ?_⟩
  · exact exec_setWindow_outOfRange hs hon (Bool.eq_false_iff.mpr fun hw => hout (inWindow_iff.mp hw))
  · have hw : inWindow s.cfg ⟨c0, c1, p0, p1⟩ = true := inWindow_iff.mpr hin
    have hi : items s (.setWindow c0 c1 p0 p1) = [.tx (.cmdSeq bs)] := by
      subst hbs
      simp only [items, emitWindow]
      cases s.mode <;> rfl
    have hl : launchable s (.setWindow c0 c1 p0 p1) = true := by simp [launchable, hon, hw]
    exact ⟨exec_oneTransaction_ok hs hl hi nofun, exec_oneTransaction_err hs hl hi nofun,
      exec_oneTransaction_waits hs hl hi nofun⟩

/-! ### ERR (R112, R116, R200) -/

/-- ERR, the next event, to the outstanding call of a command, at any position of its list. -/
theorem step_err {s : State} {i : Instr} {k : Nat} {es : List Event} (he : s.env = .reply .err :: es)
    (hq : s.seq = some ⟨i, k, .busCall⟩) : step s = .next (fail i { s with env := es }) := by
  rw [step_reply hq he]
  simp [deliver, hq]

theorem fail_driver {i : Instr} (hd : isDriver i = true) (s : State) : fail i s = transportFailed s := by
  cases i with
  | setWindow | setPower | setContrast | setInverted | flush => rfl
  | nop | begin | setPixel | getPixel | clear | close => simp [isDriver] at hd

/-- Settles O25: the failure of each kind of command, written out. -/
theorem transportErrorStopsTheCommand : Obligations.TransportErrorStopsTheCommand := by
  refine fun s k es he => ⟨fun i hd hq => ?_, fun m c v hq => step_err he hq, fun hq => step_err he hq⟩
  rw [step_err he hq, fail_driver hd]
  rfl

end Sys2Proof.Machine

/-! ## BEGIN (O28) -/

namespace Sys2Proof.Machine

/-- The transactions of BEGIN behind DISPLAY_OFF, its first init step (R114). -/
def beginSetup (cfg : Config) (m : Mode) (c : Byte) (v : Bool) : List Xact :=
  [.cmdSeq [cfg.cmdtab.setClkdiv, cfg.clkdiv],
   .cmdSeq [cfg.cmdtab.setMultiplex, BitVec.ofNat 8 (cfg.height - 1)],
   .cmdSeq [cfg.cmdtab.setChargePump, if v then cfg.cmdtab.chargePumpExt else cfg.cmdtab.chargePumpInt],
   .cmdSeq [cfg.cmdtab.setAddrMode, cfg.cmdtab.modeArg m],
   .cmdSeq [cfg.cmdtab.setContrast, c],
   .cmd cfg.cmdtab.displayOn]

section
variable {s : State} (m : Mode) (c : Byte) (v : Bool)

/-- BEGIN issues RESET and waits out the delay, which a reply at hand may end (R114). -/
theorem exec_begin_ready (hs : s.ready) :
    exec (.begin m c v) s = .next (serve s.env { s with
      seq := some ⟨.begin m c v, 1, .powerupDelay⟩, trace := s.trace ++ [.reset] }) :=
  exec_of_launchable hs.1 hs.2 rfl

/-- The delay's end at hand: BEGIN waits for the answer to DISPLAY_OFF. -/
theorem exec_begin_elapsed (hs : s.ready) {es : List Event} (he : s.env = .reply .elapsed :: es) :
    exec (.begin m c v) s =
      .next (serve es (s.awaiting (.begin m c v) 2 [.reset, .cmd s.cfg.cmdtab.displayOff])) := by
  have hissue : s.trace ++ [.reset] ++ [.cmd s.cfg.cmdtab.displayOff] =
      s.trace ++ [.reset, .cmd s.cfg.cmdtab.displayOff] := by simp
  rw [exec_begin_ready m c v hs, State.awaiting, ← hissue, he]
  rfl

theorem items_begin_behind_displayOff (s : State) :
    (items s (.begin m c v)).drop 3 = (beginSetup s.cfg m c v).map .tx := rfl

theorem reset_not_mem_beginSetup (cfg : Config) : .reset ∉ beginSetup cfg m c v := by simp [beginSetup]

end

/-- Settles O28: the replies at hand are served to BEGIN's transactions behind the delay. -/
theorem beginFollowsItsRule : Obligations.BeginFollowsItsRule := by
  rintro s m c v plan hs rfl
  have hxs := items_begin_behind_displayOff m c v s
  have hr := reset_not_mem_beginSetup m c v s.cfg
  refine ⟨fun es he => ?_, fun k es hk he => ?_, fun he => ?_⟩
  · rw [exec_begin_elapsed m c v hs he]
    refine congrArg _ ((serve_all_ok hxs hr (by simp [items, beginItems]) es).trans ?_)
    exact State.eq_with_seq hs.1 (finish_seq ..)
  · rw [exec_begin_elapsed m c v hs he]
    refine congrArg _ ((serve_oks_err hxs hr (j := k) (Nat.le_of_lt_succ hk) es).trans ?_)
    exact State.eq_with_seq hs.1 (fail_seq ..)
  · rw [exec_begin_ready m c v hs, serve_noReply he]

end Sys2Proof.Machine

/-! ## The blocks of PushPages (O30) -/

namespace Sys2Proof.Machine

section
variable {k : Nat} (hk : 1 ≤ k)
include hk

/-- What holds of no blocks, and of the first `k` bytes before the blocks of the bytes behind them, holds of the blocks
PushPages cuts (R117). -/
theorem chunks_induction {P : List Byte → List (List Byte) → Prop} (nil : P [] [])
    (cons : ∀ bs bss, bs ≠ [] → P (bs.drop k) bss → P bs (bs.take k :: bss)) (bs : List Byte) :
    P bs (chunks k bs) := by
  have upTo (n : Nat) (bs : List Byte) (hn : bs.length ≤ n) : P bs (chunksUpTo n k bs) := by
    induction n generalizing bs with
    | zero => rwa [List.length_eq_zero_iff.mp (Nat.le_zero.mp hn)]
    | succ n ih =>
      cases bs with
      | nil => exact nil
      | cons b bs =>
        have hdrop : ((b :: bs).drop k).length ≤ n := by
          simp only [List.length_drop, List.length_cons] at hn ⊢
          omega
        exact cons _ _ (List.cons_ne_nil b bs) (ih _ hdrop)
  exact upTo _ bs le_rfl

theorem flatten_chunks (bs : List Byte) : (chunks k bs).flatten = bs := by
  refine chunks_induction hk (P := fun bs bss => bss.flatten = bs) rfl (fun bs bss _ ih => ?_) bs
  rw [List.flatten_cons, ih, List.take_append_drop]

/-- There are ceil(L / k) blocks (R118). -/
theorem length_chunks (bs : List Byte) : (chunks k bs).length = (bs.length + k - 1) / k := by
  refine chunks_induction hk (P := fun bs bss => bss.length = (bs.length + k - 1) / k) ?_ (fun bs bss hbs ih => ?_) bs
  · rw [List.length_nil, List.length_nil, Nat.div_eq_of_lt (by omega)]
  · have hlen : 1 ≤ bs.length := List.length_pos_iff.mpr hbs
    have hrest : (bs.length - k + k - 1) / k = (bs.length - 1) / k := by
      rcases Nat.lt_or_ge k bs.length with h | h
      · rw [Nat.sub_add_cancel h.le]
      · rw [Nat.div_eq_of_lt (by omega), Nat.div_eq_of_lt (by omega)]
    rw [List.length_cons, ih, List.length_drop, hrest, ← Nat.add_div_right _ (by omega : 0 < k)]
    congr 1
    omega

/-- All blocks but the last are full: only behind a full one are there bytes left. -/
theorem length_of_mem_dropLast_chunks {bs b : List Byte} (h : b ∈ (chunks k bs).dropLast) : b.length = k := by
  have hfull := chunks_induction hk
    (P := fun bs bss => (bs = [] → bss = []) ∧ ∀ b ∈ bss.dropLast, b.length = k)
    ⟨fun _ => rfl, by simp⟩ (fun bs bss hbs ih => ⟨fun he => absurd he hbs, fun b hb => ?_⟩) bs
  · exact hfull.2 b h
  · obtain ⟨hnil, hlast⟩ := ih
    have hne : bss ≠ [] := by
      rintro rfl
      simp at hb
    rw [List.dropLast_cons_of_ne_nil hne] at hb
    rcases List.mem_cons.mp hb with rfl | hb
    · have hlt : k < bs.length := by
        by_contra hle
        exact hne (hnil (List.drop_eq_nil_of_le (by omega)))
      exact List.length_take_of_le hlt.le
    · exact hlast b hb

/-- The last block holds what the full ones before it leave. -/
theorem length_of_getLast?_chunks {bs b : List Byte} (h : (chunks k bs).getLast? = some b) :
    b.length = bs.length - ((chunks k bs).length - 1) * k := by
  have hsplit : (chunks k bs).dropLast ++ [b] = chunks k bs := List.dropLast_append_getLast? b h
  have hsum : ((chunks k bs).dropLast.map List.length).sum = ((chunks k bs).length - 1) * k := by
    rw [List.sum_eq_card_nsmul _ k, List.length_map, List.length_dropLast, smul_eq_mul]
    rintro _ hx
    obtain ⟨c, hc, rfl⟩ := List.mem_map.mp hx
    exact length_of_mem_dropLast_chunks hk hc
  have hlen : ((chunks k bs).length - 1) * k + b.length = bs.length := by
    rw [← hsum]
    calc ((chunks k bs).dropLast.map List.length).sum + b.length
      _ = ((chunks k bs).dropLast ++ [b]).flatten.length := by simp
      _ = bs.length := by rw [hsplit, flatten_chunks hk]
  omega

end

/-- Settles O30: the facts above, about all blocks, all but the last, and the last. -/
theorem pushPagesBlocks : Obligations.PushPagesBlocks := by
  intro k bs hk _
  refine ⟨flatten_chunks hk bs, length_chunks hk bs, fun b hb => length_of_mem_chunksUpTo hk hb,
    fun b hb => length_of_mem_dropLast_chunks hk hb, fun b hb => ?_⟩
  rw [← length_chunks hk]
  exact length_of_getLast?_chunks hk hb

end Sys2Proof.Machine

/-! ## How the controller state changes (O26) -/

namespace Sys2Proof.Machine

/-! ### What a step makes of the command it works on -/

/-- What a step that is no reset makes of a state: only what is not the block's changes; an illegal word is refused; a
legal one runs; or a reply reaches the command in progress. -/
inductive Worked (s t : State) : Prop
  | rested (es : List Event) (p : List Word) (d : Word) : t = s.withOthers es p d → Worked s t
  | refused (es : List Event) (p : List Word) : s.seq = none → s.current = none →
    t = (s.withOthers es p s.readData).complete .illegalCommand .ok → Worked s t
  | executed (i : Instr) (es : List Event) (p : List Word) : s.seq = none → s.current = some i →
    Executed (s.withOthers es p s.readData) i t → Worked s t
  | replied (run : Running) (r : Reply) (es : List Event) : s.seq = some run →
    t = deliver r { s with env := es } → Worked s t

theorem worked_of_accept {s t : State} {w : Word} {es : List Event} {p : List Word} (hq : s.seq = none)
    (hw : s.accepts = some w) (h : accept w (s.withOthers es p s.readData) = .next t) : Worked s t := by
  have hc : s.current = legalOf w := State.current_of_accepts hq hw
  cases hd : decode w with
  | legal i =>
    rw [accept_legal hd] at h
    exact .executed i es p hq (by simp [hc, legalOf, hd]) (executed_of_exec h)
  | illegal why =>
    rw [accept_illegal hd] at h
    exact .refused es p hq (by simp [hc, legalOf, hd]) (Host.Outcome.next.inj h).symm

theorem worked_of_step {s t : State} (hr : s.resets = false) (h : step s = .next t) : Worked s t := by
  cases stepped_of_step h with
  | waited _ ht => exact .rested s.env s.port s.readData ht
  | acceptedHeld w ws hq hp ha => exact worked_of_accept (es := s.env) hq (State.accepts_held hq hp) ha
  | event e es hp he hh =>
    cases hh with
    | held w _ ht => exact .rested es (s.port ++ [w]) s.readData ht
    | ignored _ _ _ _ ht => exact .rested es s.port s.readData ht
    | read _ _ d ht => exact .rested es s.port d ht
    | accepted w hq ha =>
      have hq' : s.seq = none := hq
      have hp' : s.port = [] := hp.resolve_left (by simp [State.busy, hq'])
      exact worked_of_accept (p := s.port) hq' (State.accepts_write hq' hp' he) ha
    | replied r ht =>
      rcases Option.eq_none_or_eq_some s.seq with hq | ⟨run, hq⟩
      · rw [deliver_idle (s := { s with env := es }) hq] at ht
        exact .rested es s.port s.readData ht
      · exact .replied run r es hq ht
    | reset c draw => simp [State.resets_of_event hp he] at hr

/-! ### The changes of R123 -/

/-- A change of STATE by the command `i` that R123 allows. -/
inductive AllowedChange (s t : State) : Instr → Prop
  | begun (m : Mode) (c : Byte) (v : Bool) : t.ctrlState = .active → t.code = .ok → AllowedChange s t (.begin m c v)
  | beginFailed (m : Mode) (c : Byte) (v : Bool) : t.ctrlState = .uninitialized → t.code = .initializationError →
    AllowedChange s t (.begin m c v)
  | poweredOn : s.ctrlState ≠ .uninitialized → t.ctrlState = .active → AllowedChange s t (.setPower true)
  | poweredOff : s.isOn = true → t.ctrlState = .poweredOff → AllowedChange s t (.setPower false)
  | closed : s.isOn = true → t.ctrlState = .poweredOff → AllowedChange s t .close

theorem ctrlState_ne_uninitialized_of_launchable {s : State} (h : launchable s (.setPower true) = true) :
    s.ctrlState ≠ .uninitialized := by
  intro hc
  simp [launchable, State.isOn, hc] at h

theorem allowedChange_finish {i : Instr} {s : State} (hl : launchable s i = true)
    (hne : (finish i s).ctrlState ≠ s.ctrlState) : AllowedChange s (finish i s) i := by
  cases i with
  | begin m c v => exact .begun m c v rfl rfl
  | setPower flag =>
    cases flag with
    | true => exact .poweredOn (ctrlState_ne_uninitialized_of_launchable hl) rfl
    | false => exact .poweredOff (by simpa [launchable] using hl) rfl
  | close => exact .closed hl rfl
  | nop | setWindow | setContrast | setInverted | setPixel | getPixel | clear | flush => exact absurd rfl hne

theorem allowedChange_fail {i : Instr} {s : State} (hne : (fail i s).ctrlState ≠ s.ctrlState) :
    AllowedChange s (fail i s) i := by
  cases i with
  | begin m c v => exact .beginFailed m c v rfl rfl
  | _ => exact absurd rfl hne

/-- Of the state before, STATE alone decides whether a change is allowed. -/
theorem AllowedChange.of_ctrlState_eq {i : Instr} {s s' t : State} (h : AllowedChange s' t i)
    (hc : s'.ctrlState = s.ctrlState) : AllowedChange s t i := by
  have hon : s'.isOn = s.isOn := by simp [State.isOn, hc]
  cases h with
  | begun m c v ht hcode => exact .begun m c v ht hcode
  | beginFailed m c v ht hcode => exact .beginFailed m c v ht hcode
  | poweredOn hs ht => exact .poweredOn (hc ▸ hs) ht
  | poweredOff hs ht => exact .poweredOff (hon ▸ hs) ht
  | closed hs ht => exact .closed (hon ▸ hs) ht

theorem launchable_congr {s s' : State} (hc : s'.cfg = s.cfg) (hs : s'.ctrlState = s.ctrlState) (i : Instr) :
    launchable s' i = launchable s i := by cases i <;> simp [launchable, State.isOn, hc, hs]

/-- A command the checks let through changes STATE only at its end. -/
theorem Ran.allowedChange {i : Instr} {s t : State} (h : Ran i s t) (hl : launchable s i = true)
    (hne : t.ctrlState ≠ s.ctrlState) : AllowedChange s t i := by
  obtain ⟨xs, es, q, ⟨rfl, -⟩ | rfl | rfl⟩ := h
  · exact absurd rfl hne
  · have hl' : launchable { s with trace := s.trace ++ xs, env := es, seq := q } i = true :=
      (launchable_congr rfl rfl i).trans hl
    exact (allowedChange_finish hl' hne).of_ctrlState_eq rfl
  · exact (allowedChange_fail hne).of_ctrlState_eq rfl

theorem Executed.allowedChange {i : Instr} {s t : State} (h : Executed s i t) (hne : t.ctrlState ≠ s.ctrlState) :
    AllowedChange s t i := by
  cases h with
  | launched _ _ _ hl => exact (launch_ran i s).allowedChange hl hne
  | wrote => rw [State.writePixel_eq] at hne; exact absurd rfl hne
  | held | completed | read | cleared | closed => exact absurd rfl hne

/-- Over a step that is no reset STATE changes by the command the step works on. -/
theorem allowedChange_of_step {s t : State} (hs : s.inv = true) (hr : s.resets = false) (h : step s = .next t)
    (hne : t.ctrlState ≠ s.ctrlState) : ∃ i, s.current = some i ∧ AllowedChange s t i := by
  cases worked_of_step hr h with
  | rested es p d ht => exact absurd (congrArg State.ctrlState ht) hne
  | refused es p _ _ ht => exact absurd (congrArg State.ctrlState ht) hne
  | executed i es p _ hc he => exact ⟨i, hc, (he.allowedChange hne).of_ctrlState_eq rfl⟩
  | replied run r es hq ht =>
    obtain ⟨-, hl, -⟩ := (State.seqOk_running hq).mp (State.inv_iff.mp hs).2
    have hran : Ran run.cmd { s with env := es } t := ht ▸ deliver_ran (s := { s with env := es }) hq r
    exact ⟨run.cmd, State.current_running hq,
      (hran.allowedChange ((launchable_congr rfl rfl _).trans hl) hne).of_ctrlState_eq rfl⟩

/-- Settles O26: each allowed change is one of the four ways. -/
theorem controllerStateChanges : Obligations.ControllerStateChanges := by
  intro s t hs hr h hne
  obtain ⟨i, hc, hchange⟩ := allowedChange_of_step hs hr h hne
  cases hchange with
  | begun m c v ht hcode => exact .inl ⟨m, c, v, hc, .inl ⟨ht, hcode⟩⟩
  | beginFailed m c v ht hcode => exact .inl ⟨m, c, v, hc, .inr ⟨ht, hcode⟩⟩
  | poweredOn hne' ht => exact .inr (.inl ⟨hc, hne', ht⟩)
  | poweredOff hon ht => exact .inr (.inr (.inl ⟨hc, hon, ht⟩))
  | closed hon ht => exact .inr (.inr (.inr ⟨hc, hon, ht⟩))

end Sys2Proof.Machine

/-! ## What the pixel commands do: bits, bytes, round trips, the serialisation (O11 to O15, O17) -/

namespace Sys2Proof.Machine

/-! ### The bit a pixel write changes -/

/-- A pixel write clears, sets or flips the bit it is for (R140). -/
theorem getLsbD_pixelByte_self {n : Nat} (hn : n < 8) (v : PixelValue) (b : Byte) :
    (pixelByte v n b).getLsbD n = applyValue v (b.getLsbD n) := by
  have hmask : (1#8 <<< n).getLsbD n = true := by
    rw [← BitVec.twoPow_eq, BitVec.getLsbD_twoPow]
    simp [hn]
  cases v with
  | off => simp only [pixelByte, applyValue, BitVec.getLsbD_and, BitVec.getLsbD_not, hmask, Bool.not_true,
      Bool.and_false]
  | on => simp only [pixelByte, applyValue, BitVec.getLsbD_or, hmask, Bool.or_true]
  | invert => simp only [pixelByte, applyValue, BitVec.getLsbD_xor, hmask, Bool.xor_true]

section
variable {s : State} {x y : Int} (v : PixelValue)

@[simp] theorem State.writePixel_cfg : (s.writePixel x y v).cfg = s.cfg := by rw [State.writePixel_eq]

@[simp] theorem State.writePixel_isOpen : (s.writePixel x y v).isOpen = s.isOpen := by rw [State.writePixel_eq]

theorem State.rising_writePixel (hm : Memory.rising 0 s.fb) : Memory.rising 0 (s.writePixel x y v).fb := by
  unfold State.writePixel
  split
  case isTrue => exact Memory.rising_write hm _ _
  case isFalse => exact hm

theorem State.memRead_writePixel_inBounds (hm : Memory.rising 0 s.fb) (h : inBounds s.cfg x y = true) (a : Nat) :
    (s.writePixel x y v).memRead a = if pixByte s.cfg x y = a
      then pixelByte v (pixBit y) (s.memRead (pixByte s.cfg x y)) else s.memRead a := by
  rw [State.writePixel, if_pos h, State.memRead_memWrite hm]

/-- SET_PIXEL applies its value to the bit of its pixel, if there is one, and to no other (R140). -/
theorem State.getLsbD_memRead_writePixel_eq (hm : Memory.rising 0 s.fb) (a n : Nat) :
    ((s.writePixel x y v).memRead a).getLsbD n =
      if inBounds s.cfg x y = true ∧ a = pixByte s.cfg x y ∧ n = pixBit y
      then applyValue v ((s.memRead a).getLsbD n) else (s.memRead a).getLsbD n := by
  split
  case isTrue h =>
    obtain ⟨hin, rfl, rfl⟩ := h
    rw [State.memRead_writePixel_inBounds v hm hin, if_pos rfl]
    exact getLsbD_pixelByte_self (Nat.mod_lt _ (by decide)) v _
  case isFalse h =>
    exact State.getLsbD_memRead_writePixel hm v fun hin ha hn => h ⟨hin, ha.symm, hn.symm⟩

theorem State.readPixel_writePixel_self (hm : Memory.rising 0 s.fb) (h : inBounds s.cfg x y = true) :
    (s.writePixel x y v).readPixel x y = applyValue v (s.readPixel x y) := by
  rw [State.readPixel_inBounds (by simpa using h), State.readPixel_inBounds h,
    State.getLsbD_memRead_writePixel_eq v hm, State.writePixel_cfg, if_pos ⟨h, rfl, rfl⟩]

/-- SET_PIXEL changes no pixel but its own: another pixel has another place (R61, R146). -/
theorem State.readPixel_writePixel_of_ne (hm : Memory.rising 0 s.fb) {x' y' : Int} (hne : (x', y') ≠ (x, y)) :
    (s.writePixel x y v).readPixel x' y' = s.readPixel x' y' := by
  by_cases h' : inBounds s.cfg x' y' = true
  · have hplace : ¬(inBounds s.cfg x y = true ∧ pixByte s.cfg x' y' = pixByte s.cfg x y ∧ pixBit y' = pixBit y) := by
      rintro ⟨h, ha, hn⟩
      obtain ⟨rfl, rfl⟩ := pixel_place_injective h' h ha hn
      exact hne rfl
    rw [State.readPixel_inBounds (by simpa using h'), State.readPixel_inBounds h',
      State.getLsbD_memRead_writePixel_eq v hm, State.writePixel_cfg, if_neg hplace]
  · simp [State.readPixel, h']

/-- Flipping a pixel twice leaves every byte as it was (R146). -/
theorem State.memRead_writePixel_invert_twice (hm : Memory.rising 0 s.fb) (a : Nat) :
    ((s.writePixel x y .invert).writePixel x y .invert).memRead a = s.memRead a := by
  refine BitVec.eq_of_getLsbD_eq fun n _ => ?_
  rw [State.getLsbD_memRead_writePixel_eq _ (State.rising_writePixel _ hm), State.getLsbD_memRead_writePixel_eq _ hm,
    State.writePixel_cfg]
  split
  case isTrue => exact Bool.not_not _
  case isFalse => rfl

end

/-! ### SET_PIXEL, GET_PIXEL and CLEAR -/

theorem State.ready_writePixel_complete {s : State} (hs : s.ready) (x y : Int) (v : PixelValue) (c d : Code) :
    ((s.writePixel x y v).complete c d).ready :=
  ⟨rfl, (State.writePixel_isOpen v).trans hs.2⟩

@[simp] theorem State.memRead_complete (s : State) (c d : Code) (a : Nat) :
    (s.complete c d).memRead a = s.memRead a := rfl

theorem State.writePixel_complete (s : State) (c d : Code) (x y : Int) (v : PixelValue) :
    (s.complete c d).writePixel x y v = (s.writePixel x y v).complete c d := by
  rw [State.writePixel, State.writePixel, apply_ite (State.complete · c d)]
  rfl

/-- Completing an idle block's command writes the result fields alone. -/
theorem State.complete_of_idle {s : State} (h : s.seq = none) (c d : Code) :
    s.complete c d = { s with code := c, cause := d } := by
  rw [State.complete, ← h]

theorem exec_getPixel_ready {s : State} (h : s.ready) (x y : Int) :
    exec (.getPixel x y) s = .next { s with pixel := s.readPixel x y, code := .ok, cause := .ok } :=
  congrArg _ ((whenOpen_open h.1 h.2 _).trans
    (State.complete_of_idle (s := { s with pixel := s.readPixel x y }) h.1 _ _))

/-- ReadPixel: the bit of the pixel's place, or OFF outside the framebuffer (R141). -/
theorem State.readPixel_eq_ite (s : State) (x y : Int) : s.readPixel x y =
    if 0 ≤ x ∧ x < s.cfg.width ∧ 0 ≤ y ∧ y < s.cfg.height then
      (s.memRead (pixByte s.cfg x y)).getLsbD (pixBit y) else false := by
  simp only [← inBounds_iff]
  split
  case isTrue h => exact State.readPixel_inBounds h
  case isFalse h => simp [State.readPixel, h]

/-- Settles O11: SET_PIXEL applies its value to its pixel's bit and writes nothing else but the result fields. -/
theorem setPixelWritesOneBit : Obligations.SetPixelWritesOneBit := by
  intro s x y v hs hwf
  refine ⟨_, exec_setPixel_ready hs x y v, ?_, fun a n => ?_⟩
  · rw [State.writePixel_eq]
    exact State.complete_of_idle (s := { s with fb := (s.writePixel x y v).fb }) hs.1 _ _
  · have hbit := State.getLsbD_memRead_writePixel_eq (x := x) (y := y) v (State.rising_of_wf hwf) a n
    simp only [inBounds_iff] at hbit
    exact hbit

/-- Settles O12: GET_PIXEL stores what ReadPixel gives. -/
theorem getPixelReadsTheBit : Obligations.GetPixelReadsTheBit := by
  intro s x y hs
  rw [exec_getPixel_ready hs, State.readPixel_eq_ite]
  rfl

/-- Settles O13: CLEAR writes 0 to every address below FB_BYTES and nothing else but the result fields. -/
theorem clearZeroesTheFramebuffer : Obligations.ClearZeroesTheFramebuffer := by
  intro s hs hwf
  exact ⟨_, exec_clear_ready hs, State.complete_of_idle (s := s.clearFb) hs.1 _ _,
    State.memRead_clearFb (State.rising_of_wf hwf)⟩

/-! ### Round trips (R146) -/

theorem exec_setPixel_getPixel {s : State} (hs : s.ready) (hm : Memory.rising 0 s.fb) {x y : Int}
    (h : inBounds s.cfg x y = true) (v : PixelValue) :
    ∃ t u, exec (.setPixel x y v) s = .next t ∧ exec (.getPixel x y) t = .next u ∧
      u.pixel = applyValue v (s.readPixel x y) :=
  ⟨_, _, exec_setPixel_ready hs x y v, exec_getPixel_ready (State.ready_writePixel_complete hs x y v _ _) x y,
    State.readPixel_writePixel_self v hm h⟩

/-- Settles O14: SET_PIXEL applies its value to the pixel read back, and other pixels have other places. -/
theorem pixelRoundTrips : Obligations.PixelRoundTrips := by
  intro s x y hs hwf hin
  have hm := State.rising_of_wf hwf
  refine ⟨exec_setPixel_getPixel hs hm hin .on, exec_setPixel_getPixel hs hm hin .off, ?_, fun v x' y' hne => ?_⟩
  · refine ⟨_, _, exec_setPixel_ready hs x y .invert,
      exec_setPixel_ready (State.ready_writePixel_complete hs x y .invert _ _) x y .invert, fun a => ?_⟩
    simpa only [State.writePixel_complete, State.memRead_complete] using State.memRead_writePixel_invert_twice hm a
  · exact ⟨_, exec_setPixel_ready hs x y v, State.readPixel_writePixel_of_ne v hm hne⟩

/-! ### The page boundary (R147) -/

/-- On a block whose bytes are all 0, SET_PIXEL ON leaves one byte with one bit. -/
theorem exec_setPixel_on_blank {s : State} (hs : s.ready) (hm : Memory.rising 0 s.fb) (h0 : ∀ a, s.memRead a = 0)
    {x y : Int} (h : inBounds s.cfg x y = true) :
    ∃ t, exec (.setPixel x y .on) s = .next t ∧
      ∀ a, t.memRead a = if a = pixByte s.cfg x y then pixelByte .on (pixBit y) 0 else 0 := by
  refine ⟨_, exec_setPixel_ready hs x y .on, fun a => ?_⟩
  rw [State.memRead_complete, State.memRead_writePixel_inBounds .on hm h, h0, h0]
  simp only [eq_comm]

/-- Settles O15: row 7 is bit 7 of page 0 and row 8 bit 0 of page 1. -/
theorem pageBoundaryRows : Obligations.PageBoundaryRows := by
  refine ⟨fun s x hx hh => ⟨?_, ?_⟩, fun s hs hwf hw hh h0 => ⟨?_, ?_⟩⟩
  · rw [State.readPixel_inBounds (inBounds_iff.mpr (by omega))]
    simp [pixByte, pixBit]
  · rw [State.readPixel_inBounds (inBounds_iff.mpr (by omega))]
    simp [pixByte, pixBit]
  · have hplace : pixByte s.cfg 2 7 = 2 := by simp [pixByte]
    have hbyte : pixelByte .on (pixBit 7) 0 = 0x80 := by decide
    rw [← hplace, ← hbyte]
    exact exec_setPixel_on_blank hs (State.rising_of_wf hwf) h0 (inBounds_iff.mpr (by omega))
  · have hplace : pixByte s.cfg 2 8 = 6 := by simp [pixByte, hw]
    have hbyte : pixelByte .on (pixBit 8) 0 = 0x01 := by decide
    rw [← hplace, ← hbyte]
    exact exec_setPixel_on_blank hs (State.rising_of_wf hwf) h0 (inBounds_iff.mpr (by omega))

/-! ### The serialisation (R145, R148) -/

/-- Counting page by page, and in each page column by column, counts the addresses in order. -/
theorem flatMap_range_page_column (p w : Nat) :
    (List.range p).flatMap (fun i => (List.range w).map (fun c => i * w + c)) = List.range (p * w) := by
  induction p with
  | zero => simp
  | succ p ih =>
    rw [List.range_succ, List.flatMap_append, List.flatMap_singleton, ih, Nat.succ_mul, List.range_add]

theorem State.asPages_eq (s : State) : s.asPages = (List.range s.cfg.fbBytes).map s.memRead := by
  rw [Config.fbBytes, ← flatMap_range_page_column, List.map_flatMap]
  simp only [List.map_map]
  rfl

/-- Settles O17: the addresses of AsPages are those below FB_BYTES, in order. -/
theorem asPagesInIndexOrder : Obligations.AsPagesInIndexOrder := by
  refine fun s => ⟨s.asPages_eq, ?_, rfl⟩
  rw [s.asPages_eq, List.length_map, List.length_range, Config.fbBytes, Nat.mul_comm]

end Sys2Proof.Machine

/-! ## Sets of points: rectangles, row spans, bitmaps (O52, O53, O56, O59) -/

namespace Sys2Proof.Machine

/-! ### Ranges of integers -/

/-- The definition casts the list of naturals before it maps over it; here the map casts its elements. -/
theorem halfOpen_eq_map (lo hi : Int) :
    halfOpen lo hi = (List.range (hi - lo).toNat).map (fun k : Nat => lo + (k : Int)) := by
  simp [halfOpen, ← List.map_eq_flatMap]

@[simp] theorem mem_halfOpen {lo hi i : Int} : i ∈ halfOpen lo hi ↔ lo ≤ i ∧ i < hi := by
  simp only [halfOpen_eq_map, List.mem_map, List.mem_range]
  constructor
  · rintro ⟨k, hk, rfl⟩
    omega
  · exact fun h => ⟨(i - lo).toNat, by omega, by omega⟩

theorem nodup_halfOpen (lo hi : Int) : (halfOpen lo hi).Nodup := by
  rw [halfOpen_eq_map]
  exact List.nodup_range.map fun _ _ h => by simpa using h

@[simp] theorem length_halfOpen (lo hi : Int) : (halfOpen lo hi).length = (hi - lo).toNat := by
  simp [halfOpen_eq_map]

/-! ### FILL_RECT (R162) -/

/-- The rectangle is the product of its rows and its columns. -/
theorem fillRectSet_eq_product (x y w h : Int) :
    fillRectSet x y w h = (halfOpen y (y + h) ×ˢ halfOpen x (x + w)).map Prod.swap := by
  simp [fillRectSet, SProd.sprod, List.product, List.map_flatMap, Function.comp_def]

@[simp] theorem mem_fillRectSet {x y w h : Int} {p : Point} :
    p ∈ fillRectSet x y w h ↔ (x ≤ p.1 ∧ p.1 < x + w) ∧ y ≤ p.2 ∧ p.2 < y + h := by
  obtain ⟨i, j⟩ := p
  simp [fillRectSet, and_comm]

theorem nodup_fillRectSet (x y w h : Int) : (fillRectSet x y w h).Nodup := by
  rw [fillRectSet_eq_product]
  exact ((nodup_halfOpen _ _).product (nodup_halfOpen _ _)).map Prod.swap_injective

theorem length_fillRectSet (x y : Int) {w h : Int} (hw : 0 ≤ w) (hh : 0 ≤ h) :
    ((fillRectSet x y w h).length : Int) = w * h := by
  rw [fillRectSet_eq_product, List.length_map, List.length_product, length_halfOpen, length_halfOpen,
    add_sub_cancel_left, add_sub_cancel_left, Nat.cast_mul, Int.toNat_of_nonneg hw, Int.toNat_of_nonneg hh, mul_comm]

theorem fillRectSet_eq_nil {x y w h : Int} (hwh : w ≤ 0 ∨ h ≤ 0) : fillRectSet x y w h = [] :=
  List.eq_nil_iff_forall_not_mem.mpr fun p hp => by
    obtain ⟨hcol, hrow⟩ := mem_fillRectSet.mp hp
    omega

/-- Settles O52: the rectangle is a product of two ranges. -/
theorem fillRectSet_spec : Obligations.FillRectSet := fun x y w h =>
  ⟨fun i j => by simp [and_assoc], fillRectSet_eq_nil,
    fun hw hh => ⟨nodup_fillRectSet x y w h, length_fillRectSet x y hw.le hh.le⟩⟩

/-! ### DRAW_RECT (R163) -/

/-- The test DRAW_RECT filters the rectangle by. -/
def onBorder (x y w h : Int) (p : Point) : Bool :=
  decide (p.1 = x) || decide (p.1 = x + w - 1) || decide (p.2 = y) || decide (p.2 = y + h - 1)

theorem onBorder_iff {x y w h : Int} {p : Point} :
    onBorder x y w h p = true ↔ p.1 = x ∨ p.1 = x + w - 1 ∨ p.2 = y ∨ p.2 = y + h - 1 := by
  simp [onBorder, or_assoc]

theorem drawRectSet_eq_filter (x y w h : Int) :
    drawRectSet x y w h = (fillRectSet x y w h).filter (onBorder x y w h) := rfl

/-- What the border leaves of a rectangle is the rectangle one pixel further in. -/
theorem interior_perm_fillRectSet (x y w h : Int) :
    ((fillRectSet x y w h).filter (fun p => !onBorder x y w h p)).Perm
      (fillRectSet (x + 1) (y + 1) (w - 2) (h - 2)) := by
  refine (List.perm_ext_iff_of_nodup ((nodup_fillRectSet x y w h).filter _) (nodup_fillRectSet _ _ _ _)).mpr fun p => ?_
  rw [List.mem_filter, Bool.not_eq_true', Bool.eq_false_iff, ne_eq, onBorder_iff, mem_fillRectSet, mem_fillRectSet]
  omega

theorem length_drawRectSet (x y : Int) {w h : Int} (hw : 2 ≤ w) (hh : 2 ≤ h) :
    ((drawRectSet x y w h).length : Int) = 2 * w + 2 * h - 4 := by
  have hsplit := List.length_eq_length_filter_add (l := fillRectSet x y w h) (onBorder x y w h)
  have hall := length_fillRectSet x y (w := w) (h := h) (by omega) (by omega)
  have hin := length_fillRectSet (x + 1) (y + 1) (w := w - 2) (h := h - 2) (by omega) (by omega)
  rw [(interior_perm_fillRectSet x y w h).length_eq, ← drawRectSet_eq_filter] at hsplit
  calc ((drawRectSet x y w h).length : Int) = w * h - (w - 2) * (h - 2) := by omega
    _ = 2 * w + 2 * h - 4 := by ring

/-- Settles O53: the border is what the rectangle has over its interior, a rectangle too. -/
theorem drawRectSet_spec : Obligations.DrawRectSet := fun x y w h =>
  ⟨fun i j => by
      rw [drawRectSet_eq_filter, List.mem_filter, mem_fillRectSet, onBorder_iff, and_assoc (c := y ≤ j ∧ _)],
    fun hw hh => ⟨(nodup_fillRectSet x y w h).filter _, length_drawRectSet x y hw hh⟩⟩

/-! ### Row spans (R167) -/

@[simp] theorem mem_rowOf {t : List Point} {i j : Int} : i ∈ rowOf t j ↔ (i, j) ∈ t := by
  simp [rowOf]

theorem mem_rowSpan {t : List Point} {j : Int} {p : Point} :
    p ∈ rowSpan t j ↔ p.2 = j ∧ ∃ lo hi, (lo, j) ∈ t ∧ (hi, j) ∈ t ∧ lo ≤ p.1 ∧ p.1 ≤ hi := by
  obtain ⟨i, j'⟩ := p
  unfold rowSpan
  split
  next lo hi hlo hhi =>
    obtain ⟨hlot, hlo⟩ := List.min?_eq_some_iff.mp hlo
    obtain ⟨hhit, hhi⟩ := List.max?_eq_some_iff.mp hhi
    simp only [List.mem_map, mem_halfOpen, Prod.mk.injEq]
    constructor
    · rintro ⟨_, ⟨hl, hr⟩, rfl, rfl⟩
      exact ⟨rfl, lo, hi, mem_rowOf.mp hlot, mem_rowOf.mp hhit, hl, by omega⟩
    · rintro ⟨rfl, a, b, ha, hb, hai, hib⟩
      have hla := hlo a (mem_rowOf.mpr ha)
      have hbh := hhi b (mem_rowOf.mpr hb)
      exact ⟨i, ⟨by omega, by omega⟩, rfl, rfl⟩
  next hnone =>
    have hempty : rowOf t j = [] := by
      by_contra hne
      obtain ⟨lo, hlo⟩ := Option.isSome_iff_exists.mp (List.isSome_min?_of_ne_nil hne)
      obtain ⟨hi, hhi⟩ := Option.isSome_iff_exists.mp (List.isSome_max?_of_ne_nil hne)
      exact hnone lo hi hlo hhi
    have hnot (a : Int) : (a, j) ∉ t := by simp [← mem_rowOf, hempty]
    simp [hnot]

/-- A point of the spans of a set lies between two of its points of that row. -/
theorem mem_spans {t : List Point} {i j : Int} :
    (i, j) ∈ spans t ↔ ∃ lo hi, (lo, j) ∈ t ∧ (hi, j) ∈ t ∧ lo ≤ i ∧ i ≤ hi := by
  simp only [spans, List.mem_flatMap, List.mem_dedup, List.mem_map, mem_rowSpan]
  constructor
  · rintro ⟨_, -, rfl, h⟩
    exact h
  · rintro ⟨lo, hi, hlo, h⟩
    exact ⟨j, ⟨(lo, j), hlo, rfl⟩, rfl, lo, hi, hlo, h⟩

/-- Settles O56: the span of a row reaches from its least to its greatest column. -/
theorem spansFillRows : Obligations.SpansFillRows := fun _ _ _ => mem_spans

/-! ### BLIT_BITMAP (R173) -/

/-- Settles O59: the rows of the bitmap, and in each row the columns whose bit is 1. -/
theorem bitmapOneBits : Obligations.BitmapOneBits := by
  intro x y bm bw bh p
  simp only [blitBitmapSet, List.pure_def, List.bind_eq_flatMap, List.mem_flatMap, List.mem_singleton, List.mem_range,
    List.mem_map, List.mem_filter, bitmapBit, Int.lt_toNat]
  constructor
  · rintro ⟨j, hj, _, ⟨i, ⟨hi, hbit⟩, rfl⟩, rfl⟩
    exact ⟨i, j, hi, hj, rfl, hbit⟩
  · rintro ⟨i, j, hi, hj, rfl, hbit⟩
    exact ⟨j, hj, _, ⟨i, ⟨hi, hbit⟩, rfl⟩, rfl⟩

end Sys2Proof.Machine

/-! ## Lines (O54, O55) -/

namespace Sys2Proof.Machine

theorem absInt_sub_comm (a b : Int) : absInt (a - b) = absInt (b - a) := by
  unfold absInt
  omega

theorem absInt_nonneg (a : Int) : 0 ≤ absInt a := Int.natCast_nonneg _

/-! ### The loop (R164) -/

/-- The point at `x` on the driving axis and `y` on the other. -/
def axisPoint (steep : Bool) (x y : Int) : Point := if steep then (y, x) else (x, y)

/-- A point's coordinate on the driving axis. -/
def drivingCoord (steep : Bool) (p : Point) : Int := if steep then p.2 else p.1

@[simp] theorem drivingCoord_axisPoint (steep : Bool) (x y : Int) : drivingCoord steep (axisPoint steep x y) = x := by
  cases steep <;> rfl

theorem lineLoop_succ (steep : Bool) (dx dy ystep : Int) (n : Nat) (x y err : Int) :
    lineLoop steep dx dy ystep (n + 1) x y err = axisPoint steep x y ::
      (if err - dy < 0 then lineLoop steep dx dy ystep n (x + 1) (y + ystep) (err - dy + dx)
       else lineLoop steep dx dy ystep n (x + 1) y (err - dy)) := rfl

theorem halfOpen_add_succ (x : Int) (n : Nat) : halfOpen x (x + (n + 1 : Nat)) = x :: halfOpen (x + 1) (x + 1 + n) := by
  simp only [halfOpen_eq_map, add_sub_cancel_left, Int.toNat_natCast, List.range_succ_eq_map, List.map_cons,
    List.map_map, Nat.cast_zero, add_zero, List.cons.injEq, true_and]
  exact List.map_congr_left fun k _ => by simp; omega

/-- The loop takes the columns of the driving axis one after the other. -/
theorem map_drivingCoord_lineLoop (steep : Bool) (dx dy ystep : Int) (n : Nat) (x y err : Int) :
    (lineLoop steep dx dy ystep n x y err).map (drivingCoord steep) = halfOpen x (x + n) := by
  induction n generalizing x y err with
  | zero => simp [lineLoop, halfOpen_eq_map]
  | succ n ih =>
    rw [lineLoop_succ, List.map_cons, drivingCoord_axisPoint, halfOpen_add_succ]
    split
    case isTrue => rw [ih]
    case isFalse => rw [ih]

/-- An error term within `dx` of one within 0 and `dx` differs from it by no multiple of `dx` but 0. -/
theorem eq_zero_of_add_mul_mem {dx err c : Int} (h0 : 0 ≤ err) (h1 : err < dx) (hc0 : 0 ≤ err + c * dx)
    (hc1 : err + c * dx < dx) : c = 0 := by
  have hlt : c < 1 := by nlinarith
  have hgt : -1 < c := by nlinarith
  omega

/-- With the error term kept within 0 and `dx`, how often the loop steps over `n` columns is how often `dx` must be
added to bring the error term back there: `c` times. -/
theorem axisPoint_mem_lineLoop {dx dy : Int} (hdy0 : 0 ≤ dy) (hdy : dy ≤ dx) (steep : Bool) (ystep : Int) (n : Nat)
    {x y err c : Int} (h0 : 0 ≤ err) (h1 : err < dx) (hc0 : 0 ≤ err - n * dy + c * dx)
    (hc1 : err - n * dy + c * dx < dx) :
    axisPoint steep (x + n) (y + c * ystep) ∈ lineLoop steep dx dy ystep (n + 1) x y err := by
  induction n generalizing x y err c with
  | zero =>
    obtain rfl := eq_zero_of_add_mul_mem (c := c) h0 h1 (by simpa using hc0) (by simpa using hc1)
    simp [lineLoop_succ]
  | succ n ih =>
    rw [lineLoop_succ]
    refine List.mem_cons_of_mem _ ?_
    have hcol : x + (n + 1 : Nat) = x + 1 + n := by push_cast; ring
    push_cast at hc0 hc1
    split
    case isTrue =>
      have hrow : y + c * ystep = y + ystep + (c - 1) * ystep := by ring
      rw [hcol, hrow]
      exact ih (by omega) (by omega) (by linarith) (by linarith)
    case isFalse =>
      rw [hcol]
      exact ih (by omega) (by omega) (by linarith) (by linarith)

/-! ### The two endpoints in order -/

/-- What R164 says of a line between two points, given by their coordinates on the driving axis and on the other. -/
structure IsLine (steep : Bool) (x0 y0 x1 y1 : Int) (l : List Point) : Prop where
  first_mem : axisPoint steep x0 y0 ∈ l
  last_mem : axisPoint steep x1 y1 ∈ l
  nodup : l.Nodup
  length_eq : l.length = (x1 - x0).natAbs + 1

theorem IsLine.swap {steep : Bool} {x0 y0 x1 y1 : Int} {l : List Point} (h : IsLine steep x0 y0 x1 y1 l) :
    IsLine steep x1 y1 x0 y0 l :=
  ⟨h.last_mem, h.first_mem, h.nodup, by rw [h.length_eq]; omega⟩

/-- The loop ends at the second endpoint: over `dx` columns it steps `|y1 - y0|` times. -/
theorem last_mem_lineFrom {x0 y0 x1 y1 : Int} (steep : Bool) (hx : x0 ≤ x1) (hy : absInt (y1 - y0) ≤ x1 - x0) :
    axisPoint steep x1 y1 ∈ lineFrom steep x0 y0 x1 y1 := by
  unfold lineFrom
  rcases hx.eq_or_lt with rfl | hlt
  · obtain rfl : y1 = y0 := by unfold absInt at hy; omega
    simp [lineLoop_succ]
  · have hn : (((x1 - x0).toNat : Nat) : Int) = x1 - x0 := Int.toNat_of_nonneg (by omega)
    have hback : (x1 - x0) / 2 - ((x1 - x0).toNat : Nat) * absInt (y1 - y0) + absInt (y1 - y0) * (x1 - x0) =
        (x1 - x0) / 2 := by rw [hn]; ring
    have hend : y0 + absInt (y1 - y0) * (if y0 < y1 then 1 else -1) = y1 := by
      unfold absInt
      split <;> omega
    have hmem := axisPoint_mem_lineLoop (x := x0) (y := y0) (c := absInt (y1 - y0)) (err := (x1 - x0) / 2)
      (absInt_nonneg _) hy steep (if y0 < y1 then 1 else -1) (x1 - x0).toNat
      (by omega) (by omega) (by rw [hback]; omega) (by rw [hback]; omega)
    rwa [hend, hn, add_sub_cancel] at hmem

theorem isLine_lineFrom {x0 y0 x1 y1 : Int} (steep : Bool) (hx : x0 ≤ x1) (hy : absInt (y1 - y0) ≤ x1 - x0) :
    IsLine steep x0 y0 x1 y1 (lineFrom steep x0 y0 x1 y1) where
  first_mem := List.mem_cons_self
  last_mem := last_mem_lineFrom steep hx hy
  nodup := List.Nodup.of_map (drivingCoord steep) (by
    rw [lineFrom, map_drivingCoord_lineLoop]
    exact nodup_halfOpen _ _)
  length_eq := by
    rw [← List.length_map (drivingCoord steep), lineFrom, map_drivingCoord_lineLoop, length_halfOpen]
    omega

theorem isLine_lineOrdered {x0 y0 x1 y1 : Int} (steep : Bool) (h : absInt (y1 - y0) ≤ absInt (x1 - x0)) :
    IsLine steep x0 y0 x1 y1 (lineOrdered steep x0 y0 x1 y1) := by
  unfold absInt at h
  unfold lineOrdered
  split
  case isTrue => exact (isLine_lineFrom steep (by omega) (by unfold absInt; omega)).swap
  case isFalse => exact isLine_lineFrom steep (by omega) (by unfold absInt; omega)

/-- Endpoints of one column are one point, where the line is not steep; others are put in order. -/
theorem lineOrdered_swap {x0 y0 x1 y1 : Int} (steep : Bool) (h : absInt (y1 - y0) ≤ absInt (x1 - x0)) :
    lineOrdered steep x0 y0 x1 y1 = lineOrdered steep x1 y1 x0 y0 := by
  rcases lt_trichotomy x0 x1 with hlt | rfl | hgt
  · rw [lineOrdered, lineOrdered, if_neg (by omega), if_pos hlt]
  · obtain rfl : y1 = y0 := by unfold absInt at h; omega
    rfl
  · rw [lineOrdered, lineOrdered, if_pos hgt, if_neg (by omega)]

/-! ### The line -/

theorem lineSet_of_steep {x0 y0 x1 y1 : Int} (h : absInt (x1 - x0) < absInt (y1 - y0)) :
    lineSet x0 y0 x1 y1 = lineOrdered true y0 x0 y1 x1 := if_pos h

theorem lineSet_of_flat {x0 y0 x1 y1 : Int} (h : absInt (y1 - y0) ≤ absInt (x1 - x0)) :
    lineSet x0 y0 x1 y1 = lineOrdered false x0 y0 x1 y1 := if_neg (not_lt.mpr h)

/-- Settles O54: the steep test is symmetric in the endpoints, and after it they are put in order. -/
theorem lineSetSwapInvariant : Obligations.LineSetSwapInvariant := by
  intro x0 y0 x1 y1
  have hx := absInt_sub_comm x1 x0
  have hy := absInt_sub_comm y1 y0
  rcases lt_or_ge (absInt (x1 - x0)) (absInt (y1 - y0)) with h | h
  · rw [lineSet_of_steep h, lineSet_of_steep (hx ▸ hy ▸ h), lineOrdered_swap true h.le]
  · rw [lineSet_of_flat h, lineSet_of_flat (hx ▸ hy ▸ h), lineOrdered_swap false h]

/-- Settles O55: along the driving axis, the longer one, a line has each column once. -/
theorem lineSetEndpointsAndCount : Obligations.LineSetEndpointsAndCount := by
  intro x0 y0 x1 y1
  rcases lt_or_ge (absInt (x1 - x0)) (absInt (y1 - y0)) with h | h
  · obtain ⟨hfirst, hlast, hnodup, hlength⟩ := isLine_lineOrdered true h.le
    rw [lineSet_of_steep h]
    exact ⟨hfirst, hlast, hnodup, by rw [hlength, max_eq_right (Int.ofNat_le.mp h.le)]⟩
  · obtain ⟨hfirst, hlast, hnodup, hlength⟩ := isLine_lineOrdered false h
    rw [lineSet_of_flat h]
    exact ⟨hfirst, hlast, hnodup, by rw [hlength, max_eq_left (Int.ofNat_le.mp h)]⟩

end Sys2Proof.Machine

/-! ## Circles (O57) -/

namespace Sys2Proof.Machine

/-! ### The loop (R166) -/

/-- While `x < y` a turn of the loop draws an octant step one column on, at the same row or the one below. -/
theorem circleLoop_of_lt {x y : Int} (h : x < y) (n : Nat) (f ddx ddy : Int) :
    ∃ f' ddx' ddy' y', (y' = y ∨ y' = y - 1) ∧
      circleLoop (n + 1) f ddx ddy x y = octants (x + 1) y' ++ circleLoop n f' ddx' ddy' (x + 1) y' := by
  rw [circleLoop, if_pos h]
  split
  case isTrue => exact ⟨_, _, _, _, .inr rfl, rfl⟩
  case isFalse => exact ⟨_, _, _, _, .inl rfl, rfl⟩

theorem circleLoop_of_ge {x y : Int} (h : y ≤ x) (n : Nat) (f ddx ddy : Int) : circleLoop n f ddx ddy x y = [] := by
  cases n with
  | zero => rfl
  | succ n => rw [circleLoop, if_neg (not_lt.mpr h)]

theorem ne_origin_of_mem_octants {x y : Int} (h : 0 < x) {p : Point} (hp : p ∈ octants x y) : p ≠ (0, 0) := by
  rintro rfl
  simp only [octants, List.mem_cons, Prod.mk.injEq, List.not_mem_nil, or_false] at hp
  omega

theorem ne_origin_of_mem_circleLoop {n : Nat} {f ddx ddy x y : Int} (hx : 0 ≤ x) {p : Point}
    (hp : p ∈ circleLoop n f ddx ddy x y) : p ≠ (0, 0) := by
  induction n generalizing f ddx ddy x y with
  | zero => exact absurd hp List.not_mem_nil
  | succ n ih =>
    rcases lt_or_ge x y with h | h
    · obtain ⟨f', ddx', ddy', y', -, heq⟩ := circleLoop_of_lt h n f ddx ddy
      rcases List.mem_append.mp (heq ▸ hp) with hp | hp
      · exact ne_origin_of_mem_octants (by omega) hp
      · exact ih (by omega) hp
    · rw [circleLoop_of_ge h] at hp
      exact absurd hp List.not_mem_nil

/-- The columns go up by one and the rows down by at most one until they meet, so between them no row is left out, and
each is drawn on both sides of the centre. -/
theorem exists_mem_circleLoop_row {n : Nat} {f ddx ddy x y j : Int} (hn : y ≤ x + n) (hxj : x < j) (hjy : j < y) :
    ∃ i, (i, j) ∈ circleLoop n f ddx ddy x y ∧ (i, -j) ∈ circleLoop n f ddx ddy x y := by
  induction n generalizing f ddx ddy x y with
  | zero => omega
  | succ n ih =>
    obtain ⟨f', ddx', ddy', y', hy', heq⟩ := circleLoop_of_lt (hxj.trans hjy) n f ddx ddy
    rw [heq]
    by_cases hcol : j = x + 1
    · exact ⟨y', by simp [octants, hcol], by simp [octants, hcol]⟩
    by_cases hrow : j = y'
    · exact ⟨x + 1, by simp [octants, hrow], by simp [octants, hrow]⟩
    obtain ⟨i, hpos, hneg⟩ := ih (f := f') (ddx := ddx') (ddy := ddy') (x := x + 1) (y := y')
      (by push_cast at hn; omega) (by omega) (by omega)
    exact ⟨i, List.mem_append_right _ hpos, List.mem_append_right _ hneg⟩

/-! ### The offsets and the outline -/

theorem mem_circleOffsets {r : Int} (hr : 0 ≤ r) {p : Point} : p ∈ circleOffsets r ↔
    p ∈ [(0, r), (0, -r), (r, 0), (-r, 0)] ∨ p ∈ circleLoop r.toNat (1 - r) 1 (-2 * r) 0 r := by
  rw [circleOffsets, if_neg (not_lt.mpr hr), List.mem_append]

theorem origin_notMem_circleOffsets {r : Int} (hr : 1 ≤ r) : ((0, 0) : Point) ∉ circleOffsets r := by
  intro h
  rcases (mem_circleOffsets (by omega)).mp h with h | h
  · simp only [List.mem_cons, Prod.mk.injEq, List.not_mem_nil, or_false] at h
    omega
  · exact ne_origin_of_mem_circleLoop le_rfl h rfl

theorem exists_mem_circleOffsets_row {r j : Int} (hr : 0 ≤ r) (hlo : -r ≤ j) (hhi : j ≤ r) :
    ∃ i, (i, j) ∈ circleOffsets r := by
  simp only [mem_circleOffsets hr]
  by_cases hj0 : j = 0
  · exact ⟨r, .inl (by simp [hj0])⟩
  by_cases hjr : j = r ∨ j = -r
  · exact ⟨0, .inl (by rcases hjr with rfl | rfl <;> simp)⟩
  have hfuel : r ≤ 0 + (r.toNat : Int) := by omega
  rcases lt_or_ge 0 j with hpos | hneg
  · obtain ⟨i, h, -⟩ := exists_mem_circleLoop_row (j := j) hfuel hpos (by omega)
    exact ⟨i, .inr h⟩
  · obtain ⟨i, -, h⟩ := exists_mem_circleLoop_row (j := -j) hfuel (by omega) (by omega)
    exact ⟨i, .inr (by rwa [neg_neg] at h)⟩

theorem mem_translate {cx cy : Int} {o : List Point} {i j : Int} :
    (i, j) ∈ translate cx cy o ↔ (i - cx, j - cy) ∈ o := by
  simp only [translate, List.mem_map, Prod.mk.injEq]
  constructor
  · rintro ⟨⟨a, b⟩, h, rfl, rfl⟩
    simpa using h
  · exact fun h => ⟨_, h, by simp⟩

/-! ### The fill (R167, R168) -/

theorem mem_spans_of_mem {t : List Point} {p : Point} (h : p ∈ t) : p ∈ spans t :=
  mem_spans.mpr ⟨p.1, p.1, h, h, le_rfl, le_rfl⟩

/-- The spans of a set have no gaps. -/
theorem mem_spans_of_between {t : List Point} {a b i j : Int} (ha : (a, j) ∈ spans t) (hb : (b, j) ∈ spans t)
    (hai : a ≤ i) (hib : i ≤ b) : (i, j) ∈ spans t := by
  obtain ⟨lo, -, hlo, -, hla, -⟩ := mem_spans.mp ha
  obtain ⟨-, hi, -, hhi, -, hbh⟩ := mem_spans.mp hb
  exact mem_spans.mpr ⟨lo, hi, hlo, hhi, hla.trans hai, hib.trans hbh⟩

theorem centre_mem_fillCircleSet (cx cy : Int) {r : Int} (hr : 0 ≤ r) : (cx, cy) ∈ fillCircleSet cx cy r := by
  have hleft : (cx - r, cy) ∈ drawCircleSet cx cy r :=
    mem_translate.mpr ((mem_circleOffsets hr).mpr (.inl (by simp)))
  have hright : (cx + r, cy) ∈ drawCircleSet cx cy r :=
    mem_translate.mpr ((mem_circleOffsets hr).mpr (.inl (by simp)))
  exact mem_spans.mpr ⟨cx - r, cx + r, hleft, hright, by omega, by omega⟩

theorem exists_mem_fillCircleSet_row {cx cy r j : Int} (hr : 0 ≤ r) (hlo : cy - r ≤ j) (hhi : j ≤ cy + r) :
    ∃ i, (i, j) ∈ fillCircleSet cx cy r := by
  obtain ⟨i, hi⟩ := exists_mem_circleOffsets_row (j := j - cy) hr (by omega) (by omega)
  exact ⟨cx + i, mem_spans_of_mem (mem_translate.mpr (by simpa using hi))⟩

/-- Settles O57: the outline has every row, and its spans fill each between its ends. -/
theorem circleFillWithoutGaps : Obligations.CircleFillWithoutGaps := by
  intro cx cy r hr
  have hr0 : 0 ≤ r := by omega
  refine ⟨fun p => mem_spans_of_mem, centre_mem_fillCircleSet cx cy hr0, fun h => ?_,
    fun j => exists_mem_fillCircleSet_row hr0, fun j a b i => mem_spans_of_between⟩
  exact origin_notMem_circleOffsets hr (by simpa using mem_translate.mp h)

end Sys2Proof.Machine

/-! ## The value of a coordinate, and BLIT_GLYPH (O58) -/

namespace Sys2Proof.Machine

/-- If at most the value `o` is listed for a coordinate, and is when there is one, that is its value. -/
theorem valueAt_eq_of_forall_mem_iff {t : List (Point × PixelValue)} {x y : Int} {o : Option PixelValue}
    (h : ∀ v, ((x, y), v) ∈ t ↔ o = some v) : valueAt t x y = o := by
  unfold valueAt
  cases hfind : t.find? (fun e => decide (e.1 = (x, y))) with
  | none =>
    have hno : ∀ v, o ≠ some v := fun v ho => by
      simpa using List.find?_eq_none.mp hfind _ ((h v).mpr ho)
    exact (Option.eq_none_iff_forall_ne_some.mpr hno).symm
  | some e =>
    obtain ⟨p, v⟩ := e
    obtain rfl : p = (x, y) := by simpa using List.find?_some hfind
    exact ((h v).mp (List.mem_of_find?_eq_some hfind)).symm

/-! ### The cells of a glyph (R172) -/

/-- Blocks of side `s` side by side do not overlap. -/
theorem cell_unique {x s p : Int} {i i' : Nat} (h0 : x + i * s ≤ p) (h1 : p < x + (i + 1) * s)
    (h0' : x + i' * s ≤ p) (h1' : p < x + (i' + 1) * s) : i = i' := by
  have hs : 0 < s := by linarith
  have hlt : (i : Int) < i' + 1 := lt_of_mul_lt_mul_right (by linarith) hs.le
  have hgt : (i' : Int) < i + 1 := lt_of_mul_lt_mul_right (by linarith) hs.le
  omega

/-- Coordinate (px, py) lies in the block of cell (i, j). -/
def InCell (x y s : Int) (i j : Nat) (px py : Int) : Prop :=
  (x + i * s ≤ px ∧ px < x + (i + 1) * s) ∧ y + j * s ≤ py ∧ py < y + (j + 1) * s

theorem InCell.unique {x y s : Int} {i j i' j' : Nat} {px py : Int} (h : InCell x y s i j px py)
    (h' : InCell x y s i' j' px py) : i = i' ∧ j = j' :=
  ⟨cell_unique h.1.1 h.1.2 h'.1.1 h'.1.2, cell_unique h.2.1 h.2.2 h'.2.1 h'.2.2⟩

/-- A cell of the glyph lies between its edges. -/
theorem InCell.within {x y s : Int} {i j cols rows : Nat} {px py : Int} (h : InCell x y s i j px py) (hi : i < cols)
    (hj : j < rows) : (x ≤ px ∧ px < x + cols * s) ∧ y ≤ py ∧ py < y + rows * s := by
  obtain ⟨⟨hx0, hx1⟩, hy0, hy1⟩ := h
  have hs : 0 < s := by linarith
  have hcols : ((i : Int) + 1) * s ≤ cols * s := mul_le_mul_of_nonneg_right (by omega) hs.le
  have hrows : ((j : Int) + 1) * s ≤ rows * s := mul_le_mul_of_nonneg_right (by omega) hs.le
  have hi0 : 0 ≤ (i : Int) * s := by positivity
  have hj0 : 0 ≤ (j : Int) * s := by positivity
  exact ⟨⟨by linarith, by linarith⟩, by linarith, by linarith⟩

section
variable {x y s : Int} {g : Glyph} {fg : PixelValue} {bg : Option PixelValue}

theorem mem_glyphCell {i j : Nat} {px py : Int} {v : PixelValue} :
    ((px, py), v) ∈ glyphCell x y s fg bg g i j ↔
      InCell x y s i j px py ∧ glyphValue fg bg (g.bit i j) = some v := by
  have hcell : (px, py) ∈ fillRectSet (x + i * s) (y + j * s) s s ↔ InCell x y s i j px py := by
    rw [mem_fillRectSet, InCell, add_one_mul, add_one_mul, ← add_assoc, ← add_assoc]
  unfold glyphCell
  split
  next w hw => simp [hcell, hw, -mem_fillRectSet]
  next hw => simp [hw]

theorem mem_blitGlyphSet {px py : Int} {v : PixelValue} : ((px, py), v) ∈ blitGlyphSet x y g s fg bg ↔
    ∃ i j, i < g.cols ∧ j < g.rows ∧ InCell x y s i j px py ∧ glyphValue fg bg (g.bit i j) = some v := by
  simp only [blitGlyphSet, List.mem_flatMap, List.mem_range, mem_glyphCell]
  constructor
  · rintro ⟨j, hj, i, hi, h⟩
    exact ⟨i, j, hi, hj, h⟩
  · rintro ⟨i, j, hi, hj, h⟩
    exact ⟨j, hj, i, hi, h⟩

theorem blitGlyphSet_eq_nil (hs : s ≤ 0) : blitGlyphSet x y g s fg bg = [] :=
  List.eq_nil_iff_forall_not_mem.mpr fun ⟨⟨px, py⟩, v⟩ h => by
    obtain ⟨i, j, -, -, ⟨⟨hx0, hx1⟩, -⟩, -⟩ := mem_blitGlyphSet.mp h
    linarith

theorem valueAt_blitGlyphSet_cell {i j : Nat} (hi : i < g.cols) (hj : j < g.rows) {px py : Int}
    (h : InCell x y s i j px py) : valueAt (blitGlyphSet x y g s fg bg) px py = glyphValue fg bg (g.bit i j) := by
  refine valueAt_eq_of_forall_mem_iff fun v => mem_blitGlyphSet.trans ⟨?_, fun hv => ⟨i, j, hi, hj, h, hv⟩⟩
  rintro ⟨i', j', -, -, h', hv⟩
  obtain ⟨rfl, rfl⟩ := h.unique h'
  exact hv

theorem valueAt_blitGlyphSet_outside {px py : Int}
    (h : px < x ∨ x + g.cols * s ≤ px ∨ py < y ∨ y + g.rows * s ≤ py) :
    valueAt (blitGlyphSet x y g s fg bg) px py = none := by
  refine valueAt_eq_of_forall_mem_iff fun v => mem_blitGlyphSet.trans ⟨?_, nofun⟩
  rintro ⟨i, j, hi, hj, hcell, -⟩
  have hin := hcell.within hi hj
  omega

end

/-- Settles O58: a coordinate lies in one cell of the glyph at most, and has that cell's value. -/
theorem glyphCells : Obligations.GlyphCells := fun _ _ _ _ _ _ =>
  ⟨blitGlyphSet_eq_nil,
    fun _ _ _ hi hj _ _ hx0 hx1 hy0 hy1 => valueAt_blitGlyphSet_cell hi hj ⟨⟨hx0, hx1⟩, hy0, hy1⟩,
    fun _ _ => valueAt_blitGlyphSet_outside⟩

end Sys2Proof.Machine

/-! ## The canonical expansion, and what it draws (O50, O51) -/

namespace Sys2Proof.Machine

/-! ### The commands of the expansion (R160) -/

theorem pixelCommand_eq_some_iff {t : List (Point × PixelValue)} {y x : Nat} {i : Instr} :
    pixelCommand t y x = some i ↔ ∃ v, valueAt t x y = some v ∧ i = .setPixel x y v := by
  simp only [pixelCommand, Option.map_eq_some_iff, eq_comm (a := i)]

theorem mem_expandPoints {c : Config} {t : List (Point × PixelValue)} {i : Instr} : i ∈ expandPoints c t ↔
    ∃ x y v, i = .setPixel x y v ∧ inBounds c x y = true ∧ valueAt t x y = some v := by
  simp only [expandPoints, List.mem_flatMap, List.mem_filterMap, List.mem_range, pixelCommand_eq_some_iff,
    inBounds_iff]
  constructor
  · rintro ⟨y, hy, x, hx, v, hv, rfl⟩
    exact ⟨x, y, v, rfl, by omega, hv⟩
  · rintro ⟨x, y, v, rfl, ⟨hx0, hxw, hy0, hyh⟩, hv⟩
    lift x to Nat using hx0
    lift y to Nat using hy0
    exact ⟨y, by omega, x, by omega, v, hv, rfl⟩

theorem setPixel_mem_expandPoints {c : Config} {t : List (Point × PixelValue)} {x y : Int} {v : PixelValue}
    (h : inBounds c x y = true) : .setPixel x y v ∈ expandPoints c t ↔ valueAt t x y = some v := by
  rw [mem_expandPoints]
  constructor
  · rintro ⟨x', y', v', heq, -, hv⟩
    cases heq
    exact hv
  · exact fun hv => ⟨x, y, v, rfl, h, hv⟩

/-- Both are SET_PIXEL, the first for a pixel before the second's: in a row above, or in the same row further left. -/
def DrawnBefore (i j : Instr) : Prop :=
  ∃ x y v x' y' v', i = .setPixel x y v ∧ j = .setPixel x' y' v' ∧ (y < y' ∨ y = y' ∧ x < x')

theorem pairwise_drawnBefore_expandPoints (c : Config) (t : List (Point × PixelValue)) :
    (expandPoints c t).Pairwise DrawnBefore := by
  refine List.pairwise_flatMap.mpr ⟨fun y _ => List.pairwise_filterMap.mpr ?_, ?_⟩
  · refine List.pairwise_lt_range.imp fun {x x'} hx i hi j hj => ?_
    obtain ⟨v, -, rfl⟩ := pixelCommand_eq_some_iff.mp hi
    obtain ⟨v', -, rfl⟩ := pixelCommand_eq_some_iff.mp hj
    exact ⟨x, y, v, x', y, v', rfl, rfl, .inr ⟨rfl, by omega⟩⟩
  · refine List.pairwise_lt_range.imp fun {y y'} hy i hi j hj => ?_
    obtain ⟨x, -, hi⟩ := List.mem_filterMap.mp hi
    obtain ⟨x', -, hj⟩ := List.mem_filterMap.mp hj
    obtain ⟨v, -, rfl⟩ := pixelCommand_eq_some_iff.mp hi
    obtain ⟨v', -, rfl⟩ := pixelCommand_eq_some_iff.mp hj
    exact ⟨x, y, v, x', y', v', rfl, rfl, .inl (by omega)⟩

/-- Settles O50: the rows in order, and in each row the columns with a value in order. -/
theorem expansionIsCanonical : Obligations.ExpansionIsCanonical := fun c t =>
  ⟨fun _ => mem_expandPoints, pairwise_drawnBefore_expandPoints c t⟩

/-- A command after another of the expansion is for another pixel. -/
theorem DrawnBefore.ne {x y x' y' : Int} {v v' : PixelValue}
    (h : DrawnBefore (.setPixel x y v) (.setPixel x' y' v')) : (x, y) ≠ (x', y') := by
  obtain ⟨_, _, _, _, _, _, hi, hj, hlt⟩ := h
  cases hi
  cases hj
  intro heq
  cases heq
  omega

/-! ### Running it (R140) -/

/-- What the commands `is` have made of `s`: each pixel some command of `is` is for has that command's value applied,
the other pixels, STATE and the trace are as they were. -/
structure Drawn (is : List Instr) (s t : State) : Prop where
  trace_eq : t.trace = s.trace
  ctrlState_eq : t.ctrlState = s.ctrlState
  applied : ∀ x y v, inBounds s.cfg x y = true → .setPixel x y v ∈ is →
    t.readPixel x y = applyValue v (s.readPixel x y)
  kept : ∀ x y, (∀ v, .setPixel x y v ∉ is) → t.readPixel x y = s.readPixel x y

@[simp] theorem State.readPixel_complete (s : State) (c d : Code) (x y : Int) :
    (s.complete c d).readPixel x y = s.readPixel x y := rfl

@[simp] theorem State.writePixel_trace (s : State) (x y : Int) (v : PixelValue) :
    (s.writePixel x y v).trace = s.trace := by rw [State.writePixel_eq]

@[simp] theorem State.writePixel_ctrlState (s : State) (x y : Int) (v : PixelValue) :
    (s.writePixel x y v).ctrlState = s.ctrlState := by rw [State.writePixel_eq]

/-- One SET_PIXEL, then commands for other pixels. -/
theorem Drawn.setPixel_cons {is : List Instr} {s t : State} {x y : Int} {v : PixelValue} (hm : Memory.rising 0 s.fb)
    (hother : ∀ v', .setPixel x y v' ∉ is) (h : Drawn is ((s.writePixel x y v).complete .ok .ok) t) :
    Drawn (.setPixel x y v :: is) s t where
  trace_eq := by simpa using h.trace_eq
  ctrlState_eq := by simpa using h.ctrlState_eq
  applied x' y' v' hin hmem := by
    rcases List.mem_cons.mp hmem with heq | hmem
    · cases heq
      rw [h.kept x y hother, State.readPixel_complete, State.readPixel_writePixel_self v hm hin]
    · have hne : (x', y') ≠ (x, y) := by
        intro heq
        cases heq
        exact hother v' hmem
      rw [h.applied x' y' v' (by simpa using hin) hmem, State.readPixel_complete,
        State.readPixel_writePixel_of_ne v hm hne]
  kept x' y' hnot := by
    have hne : (x', y') ≠ (x, y) := by
      intro heq
      cases heq
      exact hnot v List.mem_cons_self
    rw [h.kept x' y' fun v' hmem => hnot v' (List.mem_cons_of_mem _ hmem), State.readPixel_complete,
      State.readPixel_writePixel_of_ne v hm hne]

/-- SET_PIXEL commands for pixels that all differ each complete, and draw their pixels once. -/
theorem exists_drawn_of_runCommands {is : List Instr} {s : State} (hs : s.ready) (hm : Memory.rising 0 s.fb)
    (hpixels : ∀ i ∈ is, ∃ x y v, i = .setPixel x y v) (horder : is.Pairwise DrawnBefore) :
    ∃ t, runCommands is s = some t ∧ Drawn is s t := by
  induction is generalizing s with
  | nil => exact ⟨s, rfl, rfl, rfl, fun _ _ _ _ h => absurd h List.not_mem_nil, fun _ _ _ => rfl⟩
  | cons i is ih =>
    obtain ⟨x, y, v, rfl⟩ := hpixels i List.mem_cons_self
    obtain ⟨hfirst, hrest⟩ := List.pairwise_cons.mp horder
    obtain ⟨t, hrun, hdrawn⟩ := ih (s := (s.writePixel x y v).complete .ok .ok)
      (State.ready_writePixel_complete hs x y v _ _) (State.rising_writePixel v hm)
      (fun j hj => hpixels j (List.mem_cons_of_mem _ hj)) hrest
    refine ⟨t, ?_, hdrawn.setPixel_cons hm fun v' hmem => (hfirst _ hmem).ne rfl⟩
    rw [runCommands, exec_setPixel_ready hs]
    exact hrun

/-- Settles O51: the expansion has one SET_PIXEL for each in-bounds pixel with a value, and none for another. -/
theorem expansionDrawsEachPixelOnce : Obligations.ExpansionDrawsEachPixelOnce := by
  intro s p hs hwf
  have hpixels : ∀ i ∈ expandPoints s.cfg p, ∃ x y v, i = .setPixel x y v := fun i hi => by
    obtain ⟨x, y, v, hset, -⟩ := mem_expandPoints.mp hi
    exact ⟨x, y, v, hset⟩
  obtain ⟨t, hrun, hdrawn⟩ := exists_drawn_of_runCommands hs (State.rising_of_wf hwf) hpixels
    (pairwise_drawnBefore_expandPoints s.cfg p)
  refine ⟨t, hrun, hdrawn.trace_eq, hdrawn.ctrlState_eq, fun x y hin => ?_⟩
  split
  next v hv => exact hdrawn.applied x y v hin ((setPixel_mem_expandPoints hin).mpr hv)
  next hnone =>
    refine hdrawn.kept x y fun v hmem => ?_
    simp [setPixel_mem_expandPoints hin, hnone] at hmem

end Sys2Proof.Machine

/-! ## The session: NOP, the closed session, CLOSE, FLUSH, the way to ACTIVE (O27, O29, O31 to O35) -/

namespace Sys2Proof.Machine

/-! ### NOP, and the closed session (R191, R192) -/

/-- Settles O27: on an idle block NOP is a completion. -/
theorem nopWritesTheResultOnly : Obligations.NopWritesTheResultOnly := fun _ hq =>
  congrArg _ ((whenIdle_idle hq _).trans (State.complete_of_idle hq _ _))

/-- Every command but NOP meets the gate of the closed session first, which writes the result fields alone. -/
theorem exec_closed {i : Instr} {s : State} (hq : s.seq = none) (ho : s.isOpen = false) (hi : i ≠ .nop) :
    exec i s = .next { s with code := .invalidState, cause := .ok } := by
  have hrefused (run : State → State) : whenOpen i s run = { s with code := .invalidState, cause := .ok } :=
    (whenOpen_closed hq ho run).trans (State.complete_of_idle hq _ _)
  cases i with
  | nop => exact absurd rfl hi
  | _ => exact congrArg _ (hrefused _)

/-- Settles O35: the gate refuses the commands, and a register read passes no gate. -/
theorem closedSessionRefusesCommands : Obligations.ClosedSessionRefusesCommands :=
  ⟨fun _ _ hq ho hi => exec_closed hq ho hi, fun s _ es _ hp _ hoff ha he =>
    (step_event (.inr hp) he).trans (hostRead_aligned (s := { s with env := es }) hoff ha)⟩

/-! ### CLOSE (R200) -/

/-- Where the panel is off there is nothing to power off. -/
theorem exec_close_off {s : State} (hs : s.ready) (h : s.isOn = false) :
    exec .close s = .next { s with isOpen := false, code := .ok, cause := .invalidState } := by
  have hclosed : closeUnpowered .invalidState s = { s with isOpen := false, code := .ok, cause := .invalidState } :=
    State.complete_of_idle (s := { s with isOpen := false }) hs.1 _ _
  rw [exec, execClose, whenOpen_open hs.1 hs.2, ← hclosed]
  rcases State.isOn_eq_false_iff.mp h with hc | hc <;> rw [hc]

/-- Settles O34: where the panel is on CLOSE is a command of one transaction. -/
theorem closeFollowsItsRule : Obligations.CloseFollowsItsRule := fun _ _ hs =>
  ⟨fun hon he => exec_oneTransaction_ok hs hon rfl nofun he,
    fun hon he => exec_oneTransaction_err hs hon rfl nofun he,
    fun hon he => exec_oneTransaction_waits hs hon rfl nofun he, exec_close_off hs⟩

/-! ### The way out of UNINITIALIZED (R194) -/

/-- A step that is a reset handles one. -/
theorem State.exists_reset_of_resets {s : State} (hr : s.resets = true) :
    ∃ c draw es, (s.busy = true ∨ s.port = []) ∧ s.env = .reset c draw :: es := by
  unfold State.resets at hr
  split at hr
  case h_2 => cases hr
  case h_1 c draw hev =>
    unfold State.event at hev
    split at hev
    case h_1 => cases hev
    case h_2 hnot =>
      obtain ⟨es, he⟩ := List.head?_eq_some_iff.mp hev
      refine ⟨c, draw, es, or_iff_not_imp_left.mpr fun hb => ?_, he⟩
      have hq := State.seq_eq_none (by simpa using hb)
      cases hp : s.port with
      | nil => rfl
      | cons w ws => exact (hnot w ws hq hp).elim

/-- A reset by the platform leaves STATE UNINITIALIZED (R40, R250). -/
theorem ctrlState_of_resets {s t : State} (hr : s.resets = true) (h : step s = .next t) :
    t.ctrlState = .uninitialized := by
  obtain ⟨c, draw, es, hp, he⟩ := State.exists_reset_of_resets hr
  rw [step_event hp he] at h
  cases handled_of_handle h with
  | reset _ _ ht => rw [ht]; rfl

/-- Settles O29: a reset goes to UNINITIALIZED, and of the other changes of STATE (O26) only BEGIN's start there. -/
theorem onlyBeginLeavesUninitialized : Obligations.OnlyBeginLeavesUninitialized := by
  intro s t hs hu h
  have hoff : s.isOn = false := State.isOn_eq_false_iff.mpr (.inl hu)
  cases hr : s.resets with
  | true => exact .inl (ctrlState_of_resets hr h)
  | false =>
    refine or_iff_not_imp_left.mpr fun hne => ?_
    obtain ⟨i, hc, hchange⟩ := allowedChange_of_step hs hr h (hu ▸ hne)
    cases hchange with
    | begun m c v ht hcode => exact ⟨m, c, v, hc, ht, hcode⟩
    | beginFailed m c v ht => exact absurd ht hne
    | poweredOn hs' => exact absurd hu hs'
    | poweredOff hon | closed hon => simp [hoff] at hon

/-! ### The flush plan (R195) -/

/-- The parts of a flush plan: each a window, and the bytes that are pushed into it. -/
def State.flushParts (s : State) : List (Window × List Byte) :=
  if s.mode = .horizontal then [(fullWidth s.cfg 0 (s.cfg.pages - 1), s.asPages)]
  else (List.range s.cfg.pages).map (fun p => (fullWidth s.cfg p p, s.pageBlock p))

/-- The transactions of one part. -/
def State.partPlan (s : State) (part : Window × List Byte) : List Xact :=
  emitWindow s.cfg.cmdtab s.mode part.1 :: (chunks s.cfg.maxXfer part.2).map .data

/-- The transactions of a flush plan: its parts, one after the other. -/
def State.flushPlan (s : State) : List Xact := s.flushParts.flatMap s.partPlan

/-- The bytes a step of a command pushes. -/
def Item.pushed : Item → List Byte
  | .tx (.data bs) => bs
  | _ => []

section
variable (s : State)

theorem flushPlan_of_horizontal (h : s.mode = .horizontal) :
    s.flushPlan = s.partPlan (fullWidth s.cfg 0 (s.cfg.pages - 1), s.asPages) := by
  rw [State.flushPlan, State.flushParts, if_pos h, List.flatMap_singleton]

/-- In VERTICAL and PAGE mode each page is a part. -/
theorem flushPlan_of_ne_horizontal (h : s.mode ≠ .horizontal) :
    s.flushPlan = (List.range s.cfg.pages).flatMap fun p => s.partPlan (fullWidth s.cfg p p, s.pageBlock p) := by
  rw [State.flushPlan, State.flushParts, if_neg h, List.flatMap_map]

/-- A window setting with the blocks behind it, as steps of a command. -/
theorem map_tx_partPlan (w : Window) (bs : List Byte) :
    (s.partPlan (w, bs)).map .tx = .tx (emitWindow s.cfg.cmdtab s.mode w) :: pushPages s.cfg bs := by
  simp [State.partPlan, pushPages]

/-- The steps of FLUSH are the transactions of the plan, and nothing else. -/
theorem flushItems_eq_map_flushPlan : s.flushItems = s.flushPlan.map .tx := by
  have paged (h : s.mode ≠ .horizontal) : (List.range s.cfg.pages).flatMap s.flushPage = s.flushPlan.map .tx := by
    rw [flushPlan_of_ne_horizontal s h, List.map_flatMap]
    simp only [map_tx_partPlan]
    rfl
  unfold State.flushItems
  split
  next h => rw [flushPlan_of_horizontal s h, map_tx_partPlan]
  next h => exact paged (by simp [h])
  next h => exact paged (by simp [h])

/-- The parts hold the serialisation in order, in every mode (R145). -/
theorem flatMap_flushParts : s.flushParts.flatMap Prod.snd = s.asPages := by
  unfold State.flushParts
  split
  · simp
  · rw [List.flatMap_map]; rfl

theorem pushed_emitWindow (t : CmdTab) (m : Mode) (w : Window) : (Item.tx (emitWindow t m w)).pushed = [] := by
  cases m <;> rfl

theorem reset_notMem_flushPlan : .reset ∉ s.flushPlan := by
  have hwindow (w : Window) : .reset ≠ emitWindow s.cfg.cmdtab s.mode w := by cases s.mode <;> exact nofun
  simp [State.flushPlan, State.partPlan, hwindow]

theorem length_pageBlock (p : Nat) : (s.pageBlock p).length = s.cfg.width := by simp [State.pageBlock]

variable {s} (hc : s.cfg.wf = true)
include hc

theorem length_partPlan (part : Window × List Byte) :
    (s.partPlan part).length = 1 + (part.2.length + s.cfg.maxXfer - 1) / s.cfg.maxXfer := by
  obtain ⟨-, -, -, -, hk⟩ := Config.wf_iff.mp hc
  rw [State.partPlan, List.length_cons, List.length_map, length_chunks hk, Nat.add_comm]

theorem pushed_partPlan (part : Window × List Byte) :
    ((s.partPlan part).map .tx).flatMap Item.pushed = part.2 := by
  obtain ⟨-, -, -, -, hk⟩ := Config.wf_iff.mp hc
  rw [State.partPlan, List.map_cons, List.flatMap_cons, pushed_emitWindow, List.nil_append, List.map_map,
    List.flatMap_map]
  exact List.flatMap_id.trans (flatten_chunks hk part.2)

theorem flushPlan_ne_nil : s.flushPlan ≠ [] := by
  have hparts : s.flushParts ≠ [] := by
    unfold State.flushParts
    split
    · exact List.cons_ne_nil _ _
    · simpa using (Config.pages_pos hc).ne'
  obtain ⟨part, hpart⟩ := List.exists_mem_of_ne_nil _ hparts
  exact List.ne_nil_of_mem (List.mem_flatMap.mpr ⟨part, hpart, List.mem_cons_self⟩)

theorem length_flushPlan : s.flushPlan.length =
    if s.mode = .horizontal then 1 + (s.cfg.fbBytes + s.cfg.maxXfer - 1) / s.cfg.maxXfer
    else s.cfg.pages * (1 + (s.cfg.width + s.cfg.maxXfer - 1) / s.cfg.maxXfer) := by
  rw [State.flushPlan, List.length_flatMap, State.flushParts]
  split
  · simp [length_partPlan hc, State.asPages_eq]
  · simp [Function.comp_def, length_partPlan hc, length_pageBlock]

theorem pushed_flushItems : s.flushItems.flatMap Item.pushed = s.asPages := by
  rw [flushItems_eq_map_flushPlan, State.flushPlan, List.map_flatMap, List.flatMap_assoc]
  simp only [pushed_partPlan hc]
  exact flatMap_flushParts s

end

/-- Settles O31: each part is a window setting and ceil(L / MAX_XFER) blocks, and the parts hold the serialisation. -/
theorem flushPlanCountsAndData : Obligations.FlushPlanCountsAndData := fun s hc => by
  refine ⟨?_, pushed_flushItems hc⟩
  rw [flushItems_eq_map_flushPlan, List.length_map, length_flushPlan hc]

/-! ### FLUSH (R195, R197) -/

/-- A page number fits its field, so a window setting sends it unchanged. -/
theorem setWidth_ofNat_page {c : Config} (hc : c.wf = true) {p : Nat} (hp : p < c.pages) :
    (BitVec.ofNat 5 p).setWidth 8 = BitVec.ofNat 8 p := by
  obtain ⟨-, -, -, hh, -⟩ := Config.wf_iff.mp hc
  have hpages : c.pages ≤ 8 := by unfold Config.pages; omega
  apply BitVec.eq_of_toNat_eq
  simp only [BitVec.toNat_setWidth, BitVec.toNat_ofNat]
  omega

section
variable {s : State} (hc : s.cfg.wf = true)
include hc

/-! The plan, with the bytes of its window settings written out, mode by mode (R113). -/

theorem flushPlan_horizontal (h : s.mode = .horizontal) : s.flushPlan =
    .cmdSeq [s.cfg.cmdtab.columnAddr, 0, BitVec.ofNat 8 (s.cfg.width - 1),
      s.cfg.cmdtab.pageAddr, 0, BitVec.ofNat 8 (s.cfg.pages - 1)] :: (chunks s.cfg.maxXfer s.asPages).map .data := by
  have hlast : s.cfg.pages - 1 < s.cfg.pages := Nat.sub_lt (Config.pages_pos hc) Nat.one_pos
  rw [flushPlan_of_horizontal s h, State.partPlan, h]
  simp [emitWindow, fullWidth, setWidth_ofNat_page hc hlast]

theorem flushPlan_vertical (h : s.mode = .vertical) : s.flushPlan = (List.range s.cfg.pages).flatMap fun p =>
    .cmdSeq [s.cfg.cmdtab.columnAddr, 0, BitVec.ofNat 8 (s.cfg.width - 1),
      s.cfg.cmdtab.pageAddr, BitVec.ofNat 8 p, BitVec.ofNat 8 p] ::
    (chunks s.cfg.maxXfer (s.pageBlock p)).map .data := by
  rw [flushPlan_of_ne_horizontal s (by simp [h])]
  refine List.flatMap_congr fun p hp => ?_
  simp [State.partPlan, h, emitWindow, fullWidth, setWidth_ofNat_page hc (List.mem_range.mp hp)]

theorem flushPlan_page (h : s.mode = .page) : s.flushPlan = (List.range s.cfg.pages).flatMap fun p =>
    .cmdSeq [s.cfg.cmdtab.pageStartBase ||| BitVec.ofNat 8 p, s.cfg.cmdtab.colLowBase, s.cfg.cmdtab.colHighBase] ::
    (chunks s.cfg.maxXfer (s.pageBlock p)).map .data := by
  rw [flushPlan_of_ne_horizontal s (by simp [h])]
  refine List.flatMap_congr fun p hp => ?_
  simp [State.partPlan, h, emitWindow, fullWidth, setWidth_ofNat_page hc (List.mem_range.mp hp)]

end

/-- Settles O32: FLUSH is a command of transactions, those of the plan. -/
theorem flushFollowsItsPlan : Obligations.FlushFollowsItsPlan := by
  intro s plan final hs hon hc hplan hfinal
  obtain ⟨x, xs, hcons⟩ := List.exists_cons_of_ne_nil (flushPlan_ne_nil hc)
  have hplan' : plan = s.flushPlan := by
    rw [hplan]
    split
    next h => exact (flushPlan_horizontal hc h).symm
    next h => exact (flushPlan_vertical hc h).symm
    next h => exact (flushPlan_page hc h).symm
  have hl : launchable s .flush = true := hon
  have hitems : items s .flush = (x :: xs).map .tx := hcons ▸ flushItems_eq_map_flushPlan s
  have hreset : .reset ∉ x :: xs := hcons ▸ reset_notMem_flushPlan s
  have hwindow : final = s.flushWindow := by
    rw [hfinal, flushWindow_eq]
    split <;> rfl
  rw [hplan', hcons, hwindow]
  refine ⟨fun es he => ?_, fun j es hj he => ?_, fun j es hj hes he => ?_⟩
  · rw [exec_transactions_ok hs hl hitems hreset he]
    exact congrArg _ (State.eq_with_seq hs.1 (finish_seq ..))
  · rw [exec_transactions_err hs hl hitems hreset (Nat.le_of_lt_succ hj) he]
    exact congrArg _ (State.eq_with_seq hs.1 (fail_seq ..))
  · exact exec_transactions_waits hs hl hitems hreset (Nat.le_of_lt_succ hj) hes he

/-- Settles O33: of what the plan is made from FLUSH writes nothing. -/
theorem retriedFlushSendsTheSamePlan : Obligations.RetriedFlushSendsTheSamePlan := by
  intro s t h
  have he := executed_of_exec h
  have hw := he.writesOnly
  exact ⟨he.memRead nofun nofun, by simpa using hw.ctrlState,
    items_congr hw.cfg (by simpa using hw.mode) hw.fbReset (by simpa using hw.fb) .flush⟩

end Sys2Proof.Machine

/-! ## Exceptions: which failure is reported and what it writes, and the call never answered (O9, O45 to O47) -/

namespace Sys2Proof.Machine

/-! ### The order of the checks (R223) -/

/-- Settles O46: the decoder's refusal, then the gates of R191 and R111, then the bounds of R120. -/
theorem errorPriority : Obligations.ErrorPriority := by
  intro s w hq
  cases hd : decode w with
  | illegal why => exact (accept_illegal hd s).trans (congrArg _ (State.complete_of_idle hq _ _))
  | legal i =>
    simp only [accept_legal hd]
    split
    case isTrue hclosed => exact exec_closed hq hclosed.1 hclosed.2
    case isFalse hopen =>
      have hready (hi : i ≠ .nop) : s.ready := ⟨hq, eq_true_of_ne_false fun ho => hopen ⟨ho, hi⟩⟩
      split
      case isTrue hgate =>
        obtain ⟨hdriver, hoff, hi⟩ := hgate
        exact exec_driver_refused (hready (by rintro rfl; cases hdriver)) hdriver hoff hi
      case isFalse hgate =>
        rintro c0 c1 p0 p1 rfl hw
        have hon : s.isOn = true := eq_true_of_ne_false fun hoff => hgate ⟨rfl, hoff, nofun⟩
        exact exec_setWindow_outOfRange (hready nofun) hon hw

/-! ### How a command ends -/

/-- How the command `i` that ended in `t` can have ended, seen from the state `s` it ran in: with OK; refused by a gate
or by the bounds of SET_WINDOW, with nothing written but the result; or with the failure of a call, which within the
invariant only a command the checks let through makes. -/
inductive Ended (s : State) (i : Instr) (t : State) : Prop
  | succeeded : t.code = .ok → Ended s i t
  | gated : i ≠ .nop → (s.isOpen = false ∨ isDriver i = true) → t = s.complete .invalidState .ok → Ended s i t
  | outOfRange (c0 c1 : BitVec 8) (p0 p1 : BitVec 5) : i = .setWindow c0 c1 p0 p1 →
    t = s.complete .outOfRange .ok → Ended s i t
  | failed (xs : List Xact) (es : List Event) (q : Option Running) : (s.inv = true → launchable s i = true) →
    t = fail i { s with trace := s.trace ++ xs, env := es, seq := q } → Ended s i t

/-- A command that ran to its end succeeded or failed. -/
theorem Ran.ended {i : Instr} {s t : State} (h : Ran i s t) (hl : s.inv = true → launchable s i = true)
    (hq : t.seq = none) : Ended s i t := by
  obtain ⟨xs, es, q, ⟨rfl, r, rfl, -⟩ | rfl | rfl⟩ := h
  · cases hq
  · exact .succeeded (finish_code i _)
  · exact .failed xs es q hl rfl

section
variable {i : Instr} {s t : State}

/-- The gates refuse a command, with nothing written but the result. -/
theorem ended_of_gated (hq : s.seq = none) (hi : i ≠ .nop) (hg : s.isOpen = false ∨ isDriver i = true)
    (hrefused : exec i s = .next { s with code := .invalidState, cause := .ok }) (h : exec i s = .next t) :
    Ended s i t :=
  .gated hi hg ((Host.Outcome.next.inj (h.symm.trans hrefused)).trans (State.complete_of_idle hq _ _).symm)

/-- A command completes with OK. -/
theorem ended_of_ok {u : State} (hu : exec i s = .next u) (hok : u.code = .ok) (h : exec i s = .next t) :
    Ended s i t :=
  .succeeded (Host.Outcome.next.inj (h.symm.trans hu) ▸ hok)

/-- Past the gates, what is not launched is a command that completes with OK at once, or SET_WINDOW out of bounds. -/
theorem ended_of_not_launchable (hs : s.ready) (hi : i ≠ .nop) (hl : launchable s i = false)
    (hg : isDriver i = true → s.isOn = true ∨ i = .setPower true) (h : exec i s = .next t) : Ended s i t := by
  cases i with
  | nop => exact absurd rfl hi
  | begin => cases hl
  | setPixel x y v => exact ended_of_ok (exec_setPixel_ready hs x y v) rfl h
  | getPixel x y => exact ended_of_ok (exec_getPixel_ready hs x y) rfl h
  | clear => exact ended_of_ok (exec_clear_ready hs) rfl h
  | close => exact ended_of_ok (exec_close_off hs hl) rfl h
  | setContrast | setInverted | flush =>
    have hon : s.isOn = true := (hg rfl).resolve_right nofun
    exact absurd hon (Bool.eq_false_iff.mp hl)
  | setWindow c0 c1 p0 p1 =>
    have hon : s.isOn = true := (hg rfl).resolve_right nofun
    have hw : inWindow s.cfg ⟨c0, c1, p0, p1⟩ = false := by simpa [launchable, hon] using hl
    refine .outOfRange c0 c1 p0 p1 rfl ?_
    rw [State.complete_of_idle hs.1]
    exact Host.Outcome.next.inj (h.symm.trans (exec_setWindow_outOfRange hs hon hw))
  | setPower flag =>
    obtain rfl : flag = true := by
      rcases hg rfl with hon | hi
      · simp [launchable, hon] at hl
      · exact Instr.setPower.inj hi
    have hu : s.ctrlState = .uninitialized :=
      of_not_not fun hne => Bool.eq_false_iff.mp hl (launchable_setPowerOn hne)
    exact ended_of_ok (exec_setPowerOn_uninitialized hs hu) rfl h

/-- A command accepted by an idle block and ended in the same step. -/
theorem ended_of_exec (hq : s.seq = none) (h : exec i s = .next t) (ht : t.seq = none) : Ended s i t := by
  by_cases hi : i = .nop
  · subst hi
    exact ended_of_ok (nopWritesTheResultOnly s hq) rfl h
  cases ho : s.isOpen with
  | false => exact ended_of_gated hq hi (.inl ho) (exec_closed hq ho hi) h
  | true =>
    cases hl : launchable s i with
    | true =>
      rw [exec_of_launchable hq ho hl] at h
      cases h
      exact (launch_ran i s).ended (fun _ => hl) ht
    | false =>
      by_cases hg : isDriver i = true → s.isOn = true ∨ i = .setPower true
      · exact ended_of_not_launchable ⟨hq, ho⟩ hi hl hg h
      · obtain ⟨hd, hoff, hp⟩ : isDriver i = true ∧ s.isOn = false ∧ i ≠ .setPower true := by simpa using hg
        exact ended_of_gated hq hi (.inr hd) (exec_driver_refused ⟨hq, ho⟩ hd hoff hp) h

/-- Around the acceptance of a word a step only takes the word from where it stood (R22). -/
theorem step_of_accepts {w : Word} (h : s.accepts = some w) :
    s.seq = none ∧ ∃ es p, step s = accept w (s.withOthers es p s.readData) := by
  unfold State.accepts at h
  split at h
  case h_1 | h_4 => cases h
  case h_2 w' ws hq hp =>
    cases h
    exact ⟨hq, s.env, ws, step_acceptsHeld hq hp⟩
  case h_3 addr width data es hq hp he =>
    split at h
    case isFalse => cases h
    case isTrue hcmd =>
      cases h
      obtain ⟨hoff, rfl⟩ := hcmd
      obtain ⟨rfl, -⟩ := windowOffset_eq_some.mp hoff
      exact ⟨hq, es, s.port, step_acceptsFresh hq hp he⟩

theorem legalOf_eq_some_iff {w : Word} : legalOf w = some i ↔ decode w = .legal i := by
  cases hd : decode w <;> simp [legalOf, hd]

/-- The command a completing step works on, if it is no reset, has ended there. -/
theorem ended_of_step (hr : s.resets = false) (hc : s.current = some i) (h : step s = .next t) (ht : t.seq = none) :
    ∃ es p, Ended (s.withOthers es p s.readData) i t := by
  cases hq : s.seq with
  | none =>
    obtain ⟨w, hw, hlegal⟩ : ∃ w, s.accepts = some w ∧ legalOf w = some i := by
      simpa [State.current, hq, Option.bind_eq_some_iff] using hc
    obtain ⟨-, es, p, hstep⟩ := step_of_accepts hw
    rw [hstep, accept_legal (legalOf_eq_some_iff.mp hlegal)] at h
    exact ⟨es, p, ended_of_exec hq h ht⟩
  | some run =>
    obtain rfl : run.cmd = i := Option.some.inj ((State.current_running hq).symm.trans hc)
    cases worked_of_step hr h with
    | rested es p d hrest =>
      rw [hrest] at ht
      exact absurd (hq.symm.trans ht) nofun
    | refused es p hq' | executed j es p hq' => simp [hq] at hq'
    | replied run' r es hq' hdeliver =>
      obtain rfl : run' = run := Option.some.inj (hq'.symm.trans hq)
      subst hdeliver
      refine ⟨es, s.port, (deliver_ran (s := { s with env := es }) hq r).ended (fun hinv => ?_) ht⟩
      obtain ⟨-, hl, -⟩ := (State.seqOk_running (s := { s with env := es }) hq).mp (State.inv_iff.mp hinv).2
      exact hl

end

/-! ### The result codes (R222) and the frame of a failure (R235) -/

/-- Settles O45: each way a command ends has its code. -/
theorem resultCodesOfEachCommand : Obligations.ResultCodesOfEachCommand := by
  intro s t i hs hr hc h ht
  obtain ⟨es, p, hended⟩ := ended_of_step hr hc h ht
  cases hended with
  | succeeded hok => exact .inl hok
  | gated hi hg heq => exact .inr (.inl ⟨heq ▸ rfl, hi, hg⟩)
  | outOfRange c0 c1 p0 p1 hi heq => exact .inr (.inr (.inr (.inl ⟨heq ▸ rfl, c0, c1, p0, p1, hi⟩)))
  | failed xs fs q hl heq =>
    have hlaunch := hl ((State.inv_withOthers s es p s.readData).trans hs)
    subst heq
    cases i with
    | begin m c v => exact .inr (.inr (.inr (.inr ⟨rfl, m, c, v, rfl⟩)))
    | setWindow | setPower | setContrast | setInverted | flush => exact .inr (.inr (.inl ⟨rfl, rfl⟩))
    | close => exact .inl rfl
    | nop | setPixel | getPixel | clear => cases hlaunch

/-- Settles O47: the failures among the ways a command ends write what they say. -/
theorem failuresChangeNothingElse : Obligations.FailuresChangeNothingElse := by
  intro s t i hr hc h ht hne
  obtain ⟨es, p, hended⟩ := ended_of_step hr hc h ht
  cases hended with
  | succeeded hok => exact absurd hok hne
  | gated _ _ heq | outOfRange _ _ _ _ _ heq =>
    subst heq
    exact ⟨rfl, nofun, fun _ => rfl⟩
  | failed xs fs q _ heq =>
    subst heq
    cases i with
    | begin m c v => exact ⟨rfl, fun _ => ⟨m, c, v, rfl⟩, by rintro (h | h) <;> cases h⟩
    | close => exact absurd rfl hne
    | _ => exact ⟨rfl, nofun, by rintro (h | h) <;> cases h⟩

/-! ### A call that is never answered (R233) -/

/-- Neither the Bus Transport nor the platform will act. -/
def Unanswered (es : List Event) : Prop := ∀ e ∈ es, (∀ r, e ≠ .reply r) ∧ (∀ c d, e ≠ .reset c d)

/-- A host event on a busy block changes the CMD port and the host's last read alone. -/
theorem Handled.others_of_busy {s t : State} {e : Event} (h : Handled s t e) (hb : s.busy = true)
    (hreply : ∀ r, e ≠ .reply r) (hreset : ∀ c d, e ≠ .reset c d) : t = s.withOthers s.env t.port t.readData := by
  cases h with
  | held w _ ht | ignored _ _ _ _ ht | read _ _ _ ht => rw [ht]; rfl
  | accepted w hq => simp [State.busy, hq] at hb
  | replied r => exact absurd rfl (hreply r)
  | reset c draw => exact absurd rfl (hreset c draw)

/-- One step of a busy block whose call is not answered: an event is taken, and its word held if it is a CMD write. -/
theorem step_unanswered {s t : State} (hb : s.busy = true) (hu : Unanswered s.env) (h : step s = .next t) :
    t = s.withOthers (s.env.drop 1) (s.port ++ (s.env.take 1).filterMap (cmdWrite s.cfg)) t.readData := by
  rw [← port_of_busy_step hb h]
  cases stepped_of_step h with
  | waited he ht => rw [ht, he]; exact congrArg (s.withOthers · s.port s.readData) he
  | event e es _ he hh =>
    obtain ⟨hreply, hreset⟩ := hu e (he ▸ List.mem_cons_self)
    rw [he]
    exact hh.others_of_busy hb hreply hreset
  | acceptedHeld w ws hq => simp [State.busy, hq] at hb

/-- Settles O9: by induction on the number of steps, each of which leaves the block busy and unanswered. -/
theorem unansweredCallHangs : Obligations.UnansweredCallHangs := by
  intro k
  induction k with
  | zero =>
    rintro s t - - ⟨⟩
    simp
  | succ k ih =>
    intro s t hb hu h
    rw [runSteps] at h
    split at h
    case h_2 | h_3 => cases h
    case h_1 u hstep =>
      have hu' := step_unanswered hb hu hstep
      rw [hu'] at h
      refine (ih _ t ?_ ?_ h).trans ?_
      · exact hb
      · exact fun e he => hu e (List.mem_of_mem_drop he)
      · simp [State.withOthers, Nat.add_comm k 1, List.take_add]

end Sys2Proof.Machine

/-! ## A reset at any time (O40) -/

namespace Sys2Proof.Machine

/-- A reset within R5 leaves the reset values; the state it meets gives only what the other agents hold (R250). -/
theorem platformReset_of_wf {c : Config} {draw : List Byte} (hc : c.wf = true) (hd : draw.length = c.fbBytes)
    (s : State) : platformReset c draw s =
      .next { State.resetTo c draw with env := s.env, port := s.port, readData := s.readData } := by
  simp [platformReset, hc, hd]

/-- Settles O40: the step takes the reset event, busy block or not, and the reset reads nothing of the running
command. -/
theorem resetAbandonsTheRunningCommand : Obligations.ResetAbandonsTheRunningCommand := by
  intro s c draw es hp he hc hd
  calc step s = platformReset c draw { s with env := es } := step_event hp he
    _ = .next { State.resetTo c draw with env := es, port := s.port, readData := s.readData } :=
      platformReset_of_wf hc hd _

end Sys2Proof.Machine
